-- ==== Sys2Proof/Word.lean ====
section
/-!
DEFINITION. The words of the Goryx G8: 64-bit registers and addresses, bytes, vector registers and predicates
(spec 00_scope.md R5, 11_bundle_encoding.md R216, 10_number_formats.md R198).
-/
namespace Sys2Proof

/-- A 64-bit register, address or syllable. -/
abbrev Word := BitVec 64

/-- A byte of memory. -/
abbrev Byte := BitVec 8

/-- A vector register image: 2,048 bytes, byte 0 in the low bits (R198). -/
abbrev VReg := BitVec 16384

/-- A predicate register: one bit for each of at most 2,048 lanes (R258). -/
abbrev Pred := BitVec 2048

end Sys2Proof
end

