-- ==== Sys2Proof/Config.lean ====
section
/-!
DEFINITION. What the spec leaves open or to the package: free values and free choices (no body, so that no proof can
know them), and the secrets and algorithms that Aknel holds (spec 19_platform.md R391 to R393).
Each is named in the assumption log.
-/
namespace Sys2Proof.Config

/-- A fresh free bit for each index: an outcome the spec calls unspecified with two listed choices (R8; DESIGN CHOICE, log 10). -/
opaque freeBit : Nat → Bool

/-- A fresh free number for each index: the dispatcher's random source (R352, R355, R357; DESIGN CHOICE, log 11). -/
opaque freeNat : Nat → Nat

/-- The rate trim the PTP servo chooses for a measured offset; the spec gives only its range (R178; DESIGN CHOICE, log 12). -/
opaque servoTrim : Nat → BitVec 32

/-- Is the device a bare package, ordering code G8P, and not the module G8M (R2; DESIGN CHOICE, log 49)? -/
opaque isG8P : Bool

/-- The power limit in milliwatts that a G8P's carrier declares at each package reset (R395; DESIGN CHOICE, log 49). -/
opaque carrierLimit : Nat → Nat

/-- The outcome of Aknel's self-test at each bring-up, which R394 does not describe (DESIGN CHOICE, log 109). -/
opaque selfTest : Nat → Bool

/-- Does a PTPCFG entry of eight words disable its port? R383 names the role but does not lay the entry out (DESIGN CHOICE,
log 118). -/
opaque ptpDisabled : List (BitVec 64) → Bool

/-- The byte at an offset of a region of a save slot, or of the shadow-result share, that holds these contents: R376 and R16 give
no layout inside these regions (DESIGN CHOICE, log 41). The first number is the region's offset in the slot. -/
opaque slotByte : Nat → List Nat → Nat → Byte

/-- The byte at an offset of a core's 64 KiB of the cache share that a supervisor read returns while the core's instruction cache
holds these lines (context, line number, bytes): R16 gives no layout (DESIGN CHOICE, log 13). -/
opaque cacheByte : List (BitVec 12 × Nat × List Byte) → Nat → Byte

/-- The vendor key digest in Aknel's fuses: 256 bits (R391). -/
opaque vendorDigest : BitVec 256

/-- The unique device secret in Aknel's fuses: 256 bits (R391). -/
opaque deviceSecret : BitVec 256

/-- ML-DSA-65 verification under FIPS 204: key, message, signature (R391; DESIGN CHOICE, log 14). -/
opaque mldsaVerify : List Byte → List Byte → List Byte → Bool

/-- The public key of the ML-DSA-65 pair generated from a seed: 1,952 bytes, the first in the low bits (R391, R392;
DESIGN CHOICE, log 14). -/
opaque mldsaPublic : List Byte → BitVec 15616

/-- The ML-DSA-65 signature, by the pair of a seed, over a message: 3,309 bytes, the first in the low bits; the index is a fresh
counter (R391, R393; DESIGN CHOICE, log 14). -/
opaque mldsaSign : Nat → List Byte → List Byte → BitVec 26472

end Sys2Proof.Config
end

