-- ==== Sys2Proof/Syntax.lean ====
section
/-!
DEFINITION. The syntax of Lywick and of the device's steps: one constructor for every row of the opcode table.
A syllable's constructor carries its predicate head and the fields of its format (spec 11_bundle_encoding.md R222, R224).
A step that a device or the outside makes carries the unit it acts on, what arrives from outside and the choices the spec
leaves open there.
-/
namespace Sys2Proof

/-- Who issues bundles: a compute core, named by tower and CSEL code (layer, cluster, core: R351), or a tower's supervisor
core (R3). -/
inductive Agent where
  | core (t : BitVec 3) (c : BitVec 6)
  | sup (t : BitVec 3)
  deriving DecidableEq, Repr

/-- The fields every syllable begins with: predicate flag, predicate sense, alias class (R222). -/
structure Head where
  pf : BitVec 4
  pn : BitVec 1
  ac : BitVec 2
  deriving DecidableEq, Repr

/-- Format SREG (R224). -/
structure SReg where
  d : BitVec 7
  a : BitVec 7
  b : BitVec 7
  c : BitVec 7
  f : BitVec 4
  x : BitVec 17
  deriving DecidableEq, Repr

/-- Format SIMM (R224). -/
structure SImm where
  d : BitVec 7
  a : BitVec 7
  imm : BitVec 35
  deriving DecidableEq, Repr

/-- Format SLONG (R224). -/
structure SLong where
  d : BitVec 7
  imm : BitVec 42
  deriving DecidableEq, Repr

/-- Format XFR (R224). -/
structure Xfr where
  t : BitVec 3
  dly : BitVec 2
  a : BitVec 7
  imm : BitVec 37
  deriving DecidableEq, Repr

/-- Format AGEN (R224). -/
structure AGen where
  ab : BitVec 4
  dim : BitVec 2
  a : BitVec 7
  imm : BitVec 36
  deriving DecidableEq, Repr

/-- Format VECF (R224). -/
structure VecF where
  dst : BitVec 10
  nwb : BitVec 1
  s1 : BitVec 10
  s2 : BitVec 10
  s3 : BitVec 10
  ty : BitVec 4
  md : BitVec 4
  deriving DecidableEq, Repr

/-- Format MATF (R224). -/
structure MatF where
  z : BitVec 3
  s1 : BitVec 10
  s2 : BitVec 10
  aux : BitVec 18
  ty : BitVec 4
  md : BitVec 4
  deriving DecidableEq, Repr

/-- Format MEMF (R224). -/
structure MemF where
  data : BitVec 10
  b : BitVec 5
  h : BitVec 5
  x : BitVec 7
  ord : BitVec 2
  scope : BitVec 3
  imm : BitVec 17
  deriving DecidableEq, Repr

/-- Format CMDF (R224). -/
structure CmdF where
  tok : BitVec 7
  a : BitVec 7
  b : BitVec 7
  c : BitVec 7
  d : BitVec 7
  x : BitVec 14
  deriving DecidableEq, Repr

/-- Format SYSF (R224). -/
structure SysF where
  d : BitVec 7
  a : BitVec 7
  b : BitVec 7
  imm : BitVec 28
  deriving DecidableEq, Repr

/-- The scalar slot a scalar syllable stands in: SCA (slot 1) or SCB (slot 2) (R220). -/
inductive Port where
  | sca
  | scb
  deriving DecidableEq, Repr

/-- What the home's ECC finds on an access (R58, R378): nothing, a corrected error, an uncorrectable error. -/
inductive DataError where
  | none
  | corrected
  | uncorrectable
  deriving DecidableEq, Repr

/-- Where a soft error strikes a cell at rest (R378). -/
inductive ErrorPlace where
  /-- a vector register of the task on a core -/
  | vector (t : BitVec 3) (c : BitVec 6) (r : BitVec 10)
  /-- a tile of the task on a core -/
  | tile (t : BitVec 3) (c : BitVec 6) (z : BitVec 3)
  /-- the snapshot or shadow results of the task on a core -/
  | snapshot (t : BitVec 3) (c : BitVec 6)
  /-- the save slot of a saved task -/
  | saved (num : BitVec 32)
  /-- an 8-byte granule of memory, by its flat address -/
  | granule (adr : Nat)
  /-- an instruction-cache line of a core, by its index in the cache -/
  | cacheLine (a : Agent) (line : Nat)
  deriving DecidableEq, Repr

/-- A signed firmware image: the vendor key it carries, its security version, its body and signature (R391). -/
structure Image where
  key : List (BitVec 8)
  svn : BitVec 32
  body : List (BitVec 8)
  signature : List (BitVec 8)
  deriving DecidableEq, Repr

/-- One constructor for each row of spec/opcode_table.json, in the table's order. -/
inductive Instr where
  /-- NOP: An empty bundle of one all-zero template word issues, is charged to the budgets and does nothing else. (R217) -/
  | nop (stop : Bool)
  /-- BUNDLE_ISSUE: A bundle is fetched, decoded, checked for decode faults and issued, with its syllables reading operands at
  issue. (R216) -/
  | bundleIssue (a : Agent)
  /-- BUDGET_TRAP: At the group end after TBUD or BUD reached zero or below, the budget trap is taken and reported to the
  supervisor. (R149) -/
  | budgetTrap (t : BitVec 3) (c : BitVec 6)
  /-- ADD: Adds A and B shifted left by n into D. (R241) -/
  | add (p : Port) (h : Head) (f : SReg)
  /-- SUB: Subtracts B shifted left by n from A into D. (R241) -/
  | sub (p : Port) (h : Head) (f : SReg)
  /-- ADDI: Adds a sign-extended immediate to A. (R242) -/
  | addi (p : Port) (h : Head) (f : SImm)
  /-- MUL: Writes the low 64 bits of A times B. (R243) -/
  | mul (p : Port) (h : Head) (f : SReg)
  /-- MULH: Writes the high 64 bits of the signed 128-bit product. (R243) -/
  | mulh (p : Port) (h : Head) (f : SReg)
  /-- MULHU: Writes the high 64 bits of the unsigned 128-bit product. (R243) -/
  | mulhu (p : Port) (h : Head) (f : SReg)
  /-- DIV: Signed division rounded toward zero, with defined results for zero divisor and overflow. (R243) -/
  | div (h : Head) (f : SReg)
  /-- DIVU: Unsigned division, giving all ones for a zero divisor. (R243) -/
  | divu (h : Head) (f : SReg)
  /-- REM: Signed remainder, giving A for a zero divisor. (R243) -/
  | rem (h : Head) (f : SReg)
  /-- REMU: Unsigned remainder, giving A for a zero divisor. (R243) -/
  | remu (h : Head) (f : SReg)
  /-- ADDPC: Writes the bundle address plus a signed byte immediate. (R248) -/
  | addpc (p : Port) (h : Head) (f : SImm)
  /-- AND: Bitwise AND of A and B. (R241) -/
  | and (p : Port) (h : Head) (f : SReg)
  /-- OR: Bitwise OR of A and B. (R241) -/
  | or (p : Port) (h : Head) (f : SReg)
  /-- XOR: Bitwise XOR of A and B. (R241) -/
  | xor (p : Port) (h : Head) (f : SReg)
  /-- ANDN: A AND NOT B. (R241) -/
  | andn (p : Port) (h : Head) (f : SReg)
  /-- ANDI: A AND a sign-extended immediate. (R242) -/
  | andi (p : Port) (h : Head) (f : SImm)
  /-- ORI: A OR a sign-extended immediate. (R242) -/
  | ori (p : Port) (h : Head) (f : SImm)
  /-- XORI: A XOR a sign-extended immediate. (R242) -/
  | xori (p : Port) (h : Head) (f : SImm)
  /-- SHL: Shifts A left by B[5:0]. (R241) -/
  | shl (p : Port) (h : Head) (f : SReg)
  /-- SHR: Logical right shift of A by B[5:0]. (R241) -/
  | shr (p : Port) (h : Head) (f : SReg)
  /-- SAR: Arithmetic right shift of A by B[5:0]. (R241) -/
  | sar (p : Port) (h : Head) (f : SReg)
  /-- SHLI: Shifts A left by an immediate amount. (R242) -/
  | shli (p : Port) (h : Head) (f : SImm)
  /-- SHRI: Logical right shift of A by an immediate amount. (R242) -/
  | shri (p : Port) (h : Head) (f : SImm)
  /-- SARI: Arithmetic right shift of A by an immediate amount. (R242) -/
  | sari (p : Port) (h : Head) (f : SImm)
  /-- FSHL: Funnel shift left of A:B, writing the high half. (R244) -/
  | fshl (p : Port) (h : Head) (f : SReg)
  /-- FSHR: Funnel shift right of A:B, writing the low half. (R244) -/
  | fshr (p : Port) (h : Head) (f : SReg)
  /-- CMP: Compares A with B and writes or combines a flag. (R245) -/
  | cmp (p : Port) (h : Head) (f : SReg)
  /-- CMPI: Compares A with a sign-extended immediate and writes a flag. (R245) -/
  | cmpi (p : Port) (h : Head) (f : SImm)
  /-- SEL: Selects A or B by a flag. (R241) -/
  | sel (p : Port) (h : Head) (f : SReg)
  /-- MIN: Signed minimum of A and B. (R241) -/
  | min (p : Port) (h : Head) (f : SReg)
  /-- MAX: Signed maximum of A and B. (R241) -/
  | max (p : Port) (h : Head) (f : SReg)
  /-- MINU: Unsigned minimum of A and B. (R241) -/
  | minu (p : Port) (h : Head) (f : SReg)
  /-- MAXU: Unsigned maximum of A and B. (R241) -/
  | maxu (p : Port) (h : Head) (f : SReg)
  /-- BFX: Extracts a sign-extended bit field. (R246) -/
  | bfx (p : Port) (h : Head) (f : SReg)
  /-- BFXU: Extracts a zero-extended bit field. (R246) -/
  | bfxu (p : Port) (h : Head) (f : SReg)
  /-- BFI: Inserts the low bits of B into a field of A. (R246) -/
  | bfi (p : Port) (h : Head) (f : SReg)
  /-- CLZ: Counts leading zero bits. (R247) -/
  | clz (p : Port) (h : Head) (f : SReg)
  /-- CTZ: Counts trailing zero bits. (R247) -/
  | ctz (p : Port) (h : Head) (f : SReg)
  /-- POPC: Counts set bits. (R247) -/
  | popc (p : Port) (h : Head) (f : SReg)
  /-- BREV: Reverses the bits of A. (R247) -/
  | brev (p : Port) (h : Head) (f : SReg)
  /-- BSWAP: Reverses the bytes of A. (R247) -/
  | bswap (p : Port) (h : Head) (f : SReg)
  /-- LI: Loads a sign-extended 42-bit immediate. (R248) -/
  | li (p : Port) (h : Head) (f : SLong)
  /-- LIH: Replaces bits 63:42 of D with an immediate. (R248) -/
  | lih (p : Port) (h : Head) (f : SLong)
  /-- PHASH: Computes one prefix-key chain link with SHAKE256 over hash, model tag and 16 token ids. (R249) -/
  | phash (h : Head) (f : SReg)
  /-- PBR: Writes a PC-relative target into a target register. (R250) -/
  | pbr (h : Head) (f : Xfr)
  /-- PBRR: Writes a scalar register value into a target register. (R250) -/
  | pbrr (h : Head) (f : SReg)
  /-- XFER: Transfers control to a target after d delay bundles, with optional drain. (R251) -/
  | xfer (h : Head) (f : Xfr)
  /-- XFERL: Transfers control and writes the return address into a link register. (R251) -/
  | xferl (h : Head) (f : Xfr)
  /-- LOOP: Activates a hardware loop with a count from a register, or skips the body for zero. (R255) -/
  | loop (h : Head) (f : SReg)
  /-- LOOPI: Activates a hardware loop with an immediate count. (R255) -/
  | loopi (h : Head) (f : SReg)
  /-- BREAK: Deactivates a loop and every loop activated after it. (R257) -/
  | breakLoop (h : Head) (f : SReg)
  /-- VANY: Sets a flag if any lane of a predicate is set. (R258) -/
  | vany (h : Head) (f : SReg)
  /-- VALL: Sets a flag if every lane of a predicate is set. (R258) -/
  | vall (h : Head) (f : SReg)
  /-- FOP: Writes a flag from other flags or a scalar test. (R259) -/
  | fop (h : Head) (f : SReg)
  /-- WFE: Waits unissued at a group boundary until EVP is set, then issues and clears it. (R260) -/
  | wfe (h : Head) (f : SReg)
  /-- SEV: Sends an event to a task, to the gang or to the supervisor core. (R261) -/
  | sev (h : Head) (f : SReg)
  /-- TEND: Ends the task when its bundle issues. (R262) -/
  | tend (h : Head) (f : SReg)
  /-- AMOV: Sets an AGU base from a scalar. (R290) -/
  | amov (h : Head) (f : AGen)
  /-- AADD: Adds a scalar to an AGU base. (R290) -/
  | aadd (h : Head) (f : AGen)
  /-- AADDI: Adds an immediate to an AGU base. (R290) -/
  | aaddi (h : Head) (f : AGen)
  /-- ACFG: Sets the count and stride of a generator dimension. (R290) -/
  | acfg (h : Head) (f : AGen)
  /-- AIND: Makes a generator dimension indirect through an exported image. (R290) -/
  | aind (h : Head) (f : AGen)
  /-- ARUN: Starts the affine generator with a base, output register and period. (R291) -/
  | arun (h : Head) (f : AGen)
  /-- ASTOP: Stops the affine generator. (R290) -/
  | astop (h : Head) (f : AGen)
  /-- GENERATOR_STEP: Every GP issued bundles the generator computes an address, with indirect lookup, for writing six bundles
  later. (R291) -/
  | generatorStep (a : Agent)
  /-- VADD: Element-wise addition. (R297) -/
  | vadd (h : Head) (f : VecF)
  /-- VSUB: Element-wise subtraction. (R297) -/
  | vsub (h : Head) (f : VecF)
  /-- VMUL: Element-wise multiplication. (R297) -/
  | vmul (h : Head) (f : VecF)
  /-- VFMA: Element-wise fused multiply-add rounded once. (R297) -/
  | vfma (h : Head) (f : VecF)
  /-- VMIN: Element-wise minimum. (R297) -/
  | vmin (h : Head) (f : VecF)
  /-- VMAX: Element-wise maximum. (R297) -/
  | vmax (h : Head) (f : VecF)
  /-- VABS: Element-wise absolute value. (R297) -/
  | vabs (h : Head) (f : VecF)
  /-- VNEG: Element-wise negation. (R297) -/
  | vneg (h : Head) (f : VecF)
  /-- VADDS: Saturating integer addition. (R297) -/
  | vadds (h : Head) (f : VecF)
  /-- VSUBS: Saturating integer subtraction. (R297) -/
  | vsubs (h : Head) (f : VecF)
  /-- VMULH: High half of the integer product. (R297) -/
  | vmulh (h : Head) (f : VecF)
  /-- VAND: Lane-wise AND. (R298) -/
  | vand (h : Head) (f : VecF)
  /-- VOR: Lane-wise OR. (R298) -/
  | vor (h : Head) (f : VecF)
  /-- VXOR: Lane-wise XOR. (R298) -/
  | vxor (h : Head) (f : VecF)
  /-- VANDN: Lane-wise AND NOT. (R298) -/
  | vandn (h : Head) (f : VecF)
  /-- VSHL: Lane-wise left shift. (R298) -/
  | vshl (h : Head) (f : VecF)
  /-- VSHR: Lane-wise logical right shift. (R298) -/
  | vshr (h : Head) (f : VecF)
  /-- VSAR: Lane-wise arithmetic right shift. (R298) -/
  | vsar (h : Head) (f : VecF)
  /-- VPOPC: Lane-wise population count. (R298) -/
  | vpopc (h : Head) (f : VecF)
  /-- VCVT: Converts lanes between integer and IEEE formats. (R302) -/
  | vcvt (h : Head) (f : VecF)
  /-- VPACK: Narrows two registers into one. (R303) -/
  | vpack (h : Head) (f : VecF)
  /-- VUNPK: Widens half of a register exactly. (R303) -/
  | vunpk (h : Head) (f : VecF)
  /-- VRSUM: Grouped pairwise sum reduction. (R299) -/
  | vrsum (h : Head) (f : VecF)
  /-- VRMAX: Grouped maximum reduction. (R299) -/
  | vrmax (h : Head) (f : VecF)
  /-- VRMIN: Grouped minimum reduction. (R299) -/
  | vrmin (h : Head) (f : VecF)
  /-- VRAND: Grouped AND reduction. (R299) -/
  | vrand (h : Head) (f : VecF)
  /-- VROR: Grouped OR reduction. (R299) -/
  | vror (h : Head) (f : VecF)
  /-- VCMP: Compares lanes and writes a predicate. (R300) -/
  | vcmp (h : Head) (f : VecF)
  /-- VQAND: ANDs two predicates. (R300) -/
  | vqand (h : Head) (f : VecF)
  /-- VQOR: ORs two predicates. (R300) -/
  | vqor (h : Head) (f : VecF)
  /-- VQNOT: Inverts a predicate. (R300) -/
  | vqnot (h : Head) (f : VecF)
  /-- VSEL: Selects lanes from two vectors by a predicate. (R301) -/
  | vsel (h : Head) (f : VecF)
  /-- VPERM: Permutes lanes by an index vector. (R301) -/
  | vperm (h : Head) (f : VecF)
  /-- VBCAST: Broadcasts a scalar to every lane. (R301) -/
  | vbcast (h : Head) (f : VecF)
  /-- VBCAST_LN: Broadcasts one lane of a vector to every lane. (R301) -/
  | vbcastLn (h : Head) (f : VecF)
  /-- VMOV: Copies a vector. (R301) -/
  | vmov (h : Head) (f : VecF)
  /-- VINS: Inserts a scalar into one lane. (R301) -/
  | vins (h : Head) (f : VecF)
  /-- VEXT: Extracts lanes from a concatenation of two vectors at an offset. (R301) -/
  | vext (h : Head) (f : VecF)
  /-- VZPS: Subtracts block zero points from offset-binary codes. (R304) -/
  | vzps (h : Head) (f : VecF)
  /-- VPLX: Reads block-scaled or nested-weight elements into a plain format. (R305) -/
  | vplx (h : Head) (f : VecF)
  /-- VPLI: Builds plane words from i8 mantissas. (R306) -/
  | vpli (h : Head) (f : VecF)
  /-- VEXP2: Computes 2 to the power of each lane. (R307) -/
  | vexp2 (h : Head) (f : VecF)
  /-- VRCP: Computes the reciprocal of each lane. (R307) -/
  | vrcp (h : Head) (f : VecF)
  /-- VMRG: Merges softmax states segment by segment. (R308) -/
  | vmrg (h : Head) (f : VecF)
  /-- GIDX: Stores the gather index set and format in ga. (R309) -/
  | gidx (h : Head) (f : VecF)
  /-- GATH: Gathers 32 rows of the A operand with side bytes into ga and a register. (R310) -/
  | gath (h : Head) (f : VecF)
  /-- MCFG: Configures array formats, exponent and bus source, attaching to the bus. (R312) -/
  | mcfg (h : Head) (f : MatF)
  /-- BUS_EPOCH_START: A new bus epoch starts once every member of the group has issued its MCFG. (R313) -/
  | busEpochStart (t : BitVec 3) (layer : BitVec 1) (cluster : BitVec 3)
  /-- MZERO: Zeroes a tile and marks it valid. (R317) -/
  | mzero (h : Head) (f : MatF)
  /-- MPUSH: Closes the open block, loads A and column exponents and opens a new block. (R314) -/
  | mpush (h : Head) (f : MatF)
  /-- MSHF: Doubles the block partials and counts a shift. (R315) -/
  | mshf (h : Head) (f : MatF)
  /-- MACC: Takes the next bus slice and accumulates one bit-plane beat. (R315) -/
  | macc (h : Head) (f : MatF)
  /-- MACCH: Adds the half-step sum of A elements without a slice. (R315) -/
  | macch (h : Head) (f : MatF)
  /-- MDRN: Drains tile rows into a vector register with conversion and optional clear. (R316) -/
  | mdrn (h : Head) (f : MatF)
  /-- GRANT_WINDOW: At each 64-count window start the column's arrays are arbitrated for full or half beat rate. (R60) -/
  | grantWindow (t : BitVec 3) (cluster : BitVec 3) (col : BitVec 2)
  /-- LD: Sign-extending scalar load from the local scratchpad. (R269) -/
  | ld (h : Head) (f : MemF)
  /-- LDZ: Zero-extending scalar load from the local scratchpad. (R269) -/
  | ldz (h : Head) (f : MemF)
  /-- ST: Scalar store to the local scratchpad. (R269) -/
  | st (h : Head) (f : MemF)
  /-- VLD: Loads 1 to 8 vector registers from the local scratchpad. (R270) -/
  | vld (h : Head) (f : MemF)
  /-- VST: Stores 1 to 8 vector registers to the local scratchpad. (R270) -/
  | vst (h : Head) (f : MemF)
  /-- TLD: Tile-shaped load from the local scratchpad. (R270) -/
  | tld (h : Head) (f : MemF)
  /-- TST: Tile-shaped store to the local scratchpad. (R270) -/
  | tst (h : Head) (f : MemF)
  /-- AMO: Atomic read-modify-write in the local scratchpad. (R272) -/
  | amo (h : Head) (f : MemF)
  /-- CAS: Compare-and-swap in the local scratchpad. (R273) -/
  | cas (h : Head) (f : MemF)
  /-- MARK: Orders earlier before later accesses of the MLS slot. (R275) -/
  | mark (h : Head) (f : MemF)
  /-- GLD: Sign-extending scalar load from global SRAM. (R269) -/
  | gld (h : Head) (f : MemF)
  /-- GLDZ: Zero-extending scalar load from global SRAM. (R269) -/
  | gldz (h : Head) (f : MemF)
  /-- GST: Scalar store to global SRAM. (R269) -/
  | gst (h : Head) (f : MemF)
  /-- GVLD: Vector load from global SRAM. (R270) -/
  | gvld (h : Head) (f : MemF)
  /-- GVST: Vector store to global SRAM. (R270) -/
  | gvst (h : Head) (f : MemF)
  /-- GTLD: Tile load from global SRAM. (R270) -/
  | gtld (h : Head) (f : MemF)
  /-- GTST: Tile store to global SRAM. (R270) -/
  | gtst (h : Head) (f : MemF)
  /-- GAMO: Atomic read-modify-write in global SRAM. (R272) -/
  | gamo (h : Head) (f : MemF)
  /-- GCAS: Compare-and-swap in global SRAM. (R273) -/
  | gcas (h : Head) (f : MemF)
  /-- GMARK: Orders accesses of the MGL slot. (R275) -/
  | gmark (h : Head) (f : MemF)
  /-- WLD: Sign-extending scalar load through a handle. (R269) -/
  | wld (h : Head) (f : MemF)
  /-- WLDZ: Zero-extending scalar load through a handle. (R269) -/
  | wldz (h : Head) (f : MemF)
  /-- WST: Scalar store through a handle. (R269) -/
  | wst (h : Head) (f : MemF)
  /-- WVLD: Vector load through a handle. (R270) -/
  | wvld (h : Head) (f : MemF)
  /-- WVST: Vector store through a handle. (R270) -/
  | wvst (h : Head) (f : MemF)
  /-- WTLD: Tile load through a handle. (R270) -/
  | wtld (h : Head) (f : MemF)
  /-- WTST: Tile store through a handle. (R270) -/
  | wtst (h : Head) (f : MemF)
  /-- WAMO: Atomic read-modify-write through a handle. (R272) -/
  | wamo (h : Head) (f : MemF)
  /-- WCAS: Compare-and-swap through a handle. (R273) -/
  | wcas (h : Head) (f : MemF)
  /-- WMARK: Orders accesses of the MTW slot. (R275) -/
  | wmark (h : Head) (f : MemF)
  /-- BLD: Loads an object-table entry into a record register. (R277) -/
  | bld (h : Head) (f : MemF)
  /-- XLATE: Translates a VA into a handle, walking the page tables on a miss. (R86) -/
  | xlate (h : Head) (f : MemF)
  /-- FENCE: Adds acquire, release or two-way ordering edges at a scope. (R276) -/
  | fence (h : Head) (f : SysF)
  /-- CPY: Starts an untimed two-dimensional copy tracked by a token, with optional completion word. (R281) -/
  | cpy (h : Head) (f : CmdF)
  /-- CPYT: Places a timed copy in the copy front end to issue at a CYC time. (R281) -/
  | cpyt (h : Head) (f : CmdF)
  /-- COPY_ISSUE: A timed copy issues from the front end when CYC reaches its time, rechecking records and handles. (R283) -/
  | copyIssue (job : Nat)
  /-- CHUNK_LAND: A copy chunk's writes are performed, its token bit is set, and after the last chunk the completion word is written
  and the token released. (R104) -/
  | chunkLand (job chunk : Nat) (err : DataError)
  /-- WAITC: Waits at a group boundary until the masked chunks of a token have landed or failed. (R285) -/
  | waitc (h : Head) (f : CmdF)
  /-- PXFER: Sends bytes to another package's GS over Clozer links, with optional receiver flag. (R288) -/
  | pxfer (h : Head) (f : CmdF)
  /-- PEER_CHUNK_RECEIVE: The receiver checks an arriving chunk or flag against its landing entries and writes or refuses it. (R388) -/
  | peerChunkReceive (link : BitVec 4) (adr : BitVec 32) (bytes : List (BitVec 8)) (flag : Bool)
  /-- SQOPEN: Opens a request record from an open block and binds the issuer. (R334) -/
  | sqopen (h : Head) (f : CmdF)
  /-- SQCLOSE: Closes a request, freeing its pages, blocks and record. (R335) -/
  | sqclose (h : Head) (f : CmdF)
  /-- SQNODE: Appends a draft node to a request's token tree. (R166) -/
  | sqnode (h : Head) (f : CmdF)
  /-- SQCHK: Submits check probabilities and NEXT tokens for listed nodes. (R166) -/
  | sqchk (h : Head) (f : CmdF)
  /-- SQACC: Accepts along the token tree, writes the accept record and advances STEP. (R167) -/
  | sqacc (h : Head) (f : CmdF)
  /-- SQACC_ASSIST_COMPLETE: The supervisor's SQACC with C[63]=1 completes a pending acceptance with its own or a device-computed
  record. (R336) -/
  | sqaccAssistComplete (h : Head) (f : CmdF)
  /-- SQSAVE: Pre-empts a request, writing its record, table and tentative pages to a save area. (R171) -/
  | sqsave (h : Head) (f : CmdF)
  /-- SQRST: Restores a saved request into the lowest free record. (R172) -/
  | sqrst (h : Head) (f : CmdF)
  /-- KVGROW: Grows TLEN, allocating KV pages and running WindowStep for windowed requests. (R119) -/
  | kvgrow (h : Head) (f : CmdF)
  /-- KVCOMMIT: Sets LEN and clears TENT of committed pages. (R119) -/
  | kvcommit (h : Head) (f : CmdF)
  /-- KVROLL: Rolls TLEN back, freeing pages past the new tail. (R119) -/
  | kvroll (h : Head) (f : CmdF)
  /-- KVEXPORT: Writes a 512 B image of page-table entries into LS and registers it. (R120) -/
  | kvexport (h : Head) (f : CmdF)
  /-- KVPOOL_ENABLE: Checks and enables a KV pool record. (R338) -/
  | kvpoolEnable (h : Head) (f : CmdF)
  /-- KVPOOL_DISABLE: Disables a KV pool. (R338) -/
  | kvpoolDisable (h : Head) (f : CmdF)
  /-- KVPOOL_PIN: Adds one to a page entry's pin count. (R338) -/
  | kvpoolPin (h : Head) (f : CmdF)
  /-- KVPOOL_UNPIN: Takes one from a page entry's pin count. (R338) -/
  | kvpoolUnpin (h : Head) (f : CmdF)
  /-- KVPOOL_SETENT: Switches a paging entry's tier and base, rewrites images and wakes waiters. (R338) -/
  | kvpoolSetent (h : Head) (f : CmdF)
  /-- KVPOOL_ALLOC: Allocates a zeroed page from a pool's tier. (R338) -/
  | kvpoolAlloc (h : Head) (f : CmdF)
  /-- KVPOOL_FREE: Frees a pool page. (R338) -/
  | kvpoolFree (h : Head) (f : CmdF)
  /-- PFXLOOK: Looks up probes in the prefix index and adopts matched shared pages. (R128) -/
  | pfxlook (h : Head) (f : CmdF)
  /-- PFXINS: Offers a committed page for insertion into the prefix index. (R129) -/
  | pfxins (h : Head) (f : CmdF)
  /-- PFXINS_ASSIST_COMPLETE: The supervisor's PFXINS with C[63]=1 performs a pending insertion. (R379) -/
  | pfxinsAssistComplete (h : Head) (f : CmdF)
  /-- PFXPIN: Pins or unpins a prefix entry. (R130) -/
  | pfxpin (h : Head) (f : CmdF)
  /-- STCFG_CONFIGURE: Writes a stream-table entry and mirror and enables the stream. (R340) -/
  | stcfgConfigure (h : Head) (f : CmdF)
  /-- STCFG_DISABLE: Disables a stream and frees its slot. (R340) -/
  | stcfgDisable (h : Head) (f : CmdF)
  /-- STCFG_EVICT: Performs the assisted eviction steps of an evicting stream. (R340) -/
  | stcfgEvict (h : Head) (f : CmdF)
  /-- STCFG_RESTORE: Performs the assisted restore steps of a restoring stream. (R340) -/
  | stcfgRestore (h : Head) (f : CmdF)
  /-- SPAWN: Launches a task on a tower and returns its task number or refusal. (R341) -/
  | spawn (h : Head) (f : SysF)
  /-- GBAR: Arrives at a gang barrier and waits until the episode ends. (R342) -/
  | gbar (h : Head) (f : SysF)
  /-- WATCH: Installs a watch entry over a range. (R343) -/
  | watch (h : Head) (f : SysF)
  /-- UNWATCH: Disables a watch entry and frees its comparator. (R343) -/
  | unwatch (h : Head) (f : SysF)
  /-- TTREL: Rearms a one-shot timetable entry with a new key. (R344) -/
  | ttrel (h : Head) (f : SysF)
  /-- RDTIME: Reads CYC, PTPT, FRAME or the current tick. (R345) -/
  | rdtime (h : Head) (f : SysF)
  /-- WAITT_CYC: Waits until CYC reaches a value. (R345) -/
  | waittCyc (h : Head) (f : SysF)
  /-- WAITT_TICK: Waits until a release tick key. (R345) -/
  | waittTick (h : Head) (f : SysF)
  /-- BUDSET: Lowers or first sets the task's budget counter. (R346) -/
  | budset (h : Head) (f : SysF)
  /-- VOPEN: Opens the next version in a free or reusable slot, waiting for a candidate. (R46) -/
  | vopen (h : Head) (f : SysF)
  /-- VSEAL: Asks the home to seal the open version once prior writes have landed. (R46) -/
  | vseal (h : Head) (f : SysF)
  /-- VSEAL_PERFORM: The seal performs when the sealer's prior writes and copies have landed, setting NEWEST. (R48) -/
  | vsealPerform (id : Nat)
  /-- VHOLD: Holds a sealed version, waiting until it is sealed. (R46) -/
  | vhold (h : Head) (f : SysF)
  /-- VREL: Releases a held version, freeing the slot in consume mode. (R46) -/
  | vrel (h : Head) (f : SysF)
  /-- MFSR: Reads a system register. (R348) -/
  | mfsr (h : Head) (f : SysF)
  /-- MTSR: Writes a system register. (R348) -/
  | mtsr (h : Head) (f : SysF)
  /-- SVC: Posts an SVC event and waits for the supervisor's answer. (R349) -/
  | svc (h : Head) (f : SysF)
  /-- ERET: Returns the supervisor core from a trap. (R349) -/
  | eret (h : Head) (f : SysF)
  /-- TRAP: Raises SOFTWARE_TRAP at its bundle. (R349) -/
  | trap (h : Head) (f : SysF)
  /-- CSLD: Loads the non-current control-store bank and makes it current. (R321) -/
  | csld (h : Head) (f : SysF)
  /-- ICINV: Invalidates instruction-cache lines of a context and range. (R349) -/
  | icinv (h : Head) (f : SysF)
  /-- HALT: Stops the supervisor core's issue. (R349) -/
  | halt (h : Head) (f : SysF)
  /-- MMT: Queues a matrix-multiply macro for the sequencer. (R323) -/
  | mmt (h : Head) (f : SysF)
  /-- MATT: Queues an attention macro over a request's KV pages. (R324) -/
  | matt (h : Head) (f : SysF)
  /-- MACRO_BEGIN: A macro at the head of the queue reads and checks its record and block, then runs its steps and writes its
  status. (R326) -/
  | macroBegin (t : BitVec 3) (c : BitVec 6)
  /-- TASK_LAUNCH: Once its descriptors are read, a launch is accepted into the ready queues or refused. (R142) -/
  | taskLaunch (t : BitVec 3) (k : Nat) (bank : BitVec 4)
  /-- POP: A free core requests a task; the dispatcher pops, places a solo task or starts a gang reservation. (R355) -/
  | pop (t : BitVec 3) (c : BitVec 6) (i j : BitVec 4) (delay : Nat)
  /-- GANG_BACKOFF_EXPIRY: A failed gang's back-off delay expires and it may be popped again. (R357) -/
  | gangBackoffExpiry (t : BitVec 3) (num : BitVec 32)
  /-- DRAIN_CLAIM_COMMIT: A pressing gang commits when every claimed core is reserved. (R357) -/
  | drainClaimCommit (t : BitVec 3) (cluster : BitVec 3)
  /-- PREEMPTION: At a group end a task is stopped, drained and saved into its save slot. (R374) -/
  | preemption (t : BitVec 3) (c : BitVec 6)
  /-- FRAME_START: At each frame start FRAME advances, slips are recorded, silence checked, watch counters reset and queues aged.
  (R179) -/
  | frameStart
  /-- RELEASE_TICK: At each release tick the timetable unit launches every due armed entry. (R183) -/
  | releaseTick (t : BitVec 3)
  /-- STREAM_CHECK_POINT: At a stream's check point the chunk is judged present or late, deciding fire, shift or gap. (R185) -/
  | streamCheckPoint (t : BitVec 3) (slot : BitVec 10)
  /-- STREAM_TICK: At a stream tick the decode task is launched if fired, WindowStep runs and NEXTT advances. (R185) -/
  | streamTick (t : BitVec 3) (slot : BitVec 10)
  /-- WATCH_TRIGGER: A performed triggering write is handled at the watch unit, launching, folding or marking retrigger. (R191) -/
  | watchTrigger (t : BitVec 3)
  /-- ETH_FRAME_RECEIVE: A received Ethernet frame is checked and discarded, held, or given to its tower. (R382) -/
  | ethFrameReceive (port : BitVec 1) (fcsOk : Bool) (bytes : List (BitVec 8))
  /-- PTP_MESSAGE: A PTP message is timestamped and exchanged, and the servo adjusts time or posts a sample. (R383) -/
  | ptpMessage (port : BitVec 1) (t1 t2 t3 t4 : BitVec 64)
  /-- STREAM_EVICTION: A silent stream's grant is revoked, the slot saved to its save area and freed. (R136) -/
  | streamEviction (t : BitVec 3) (slot : BitVec 10)
  /-- STREAM_RESTORE: A frame for an evicted stream restores it into a free slot, moves watches and places held frames. (R137) -/
  | streamRestore (t : BitVec 3) (slot : BitVec 10)
  /-- PAGE_IN_SWITCH: When a page-in copy lands, the entry switches to TM, images are rewritten and waiters' EVP set. (R69) -/
  | pageInSwitch (k : Nat)
  /-- EVICTION_RETRY: A waiting eviction is retried when a copy completes, a pin drops, a request unbinds or a frame begins. (R71) -/
  | evictionRetry (t : BitVec 3)
  /-- EVICTION_SWITCH: When the eviction copy lands the entry switches to CXL and the TM page is freed. (R71) -/
  | evictionSwitch (k : Nat)
  /-- BACKGROUND_ZEROING: Background zeroing clears a pending line or page at its home. (R27) -/
  | backgroundZeroing (unit : Nat)
  /-- SPIRE_ERROR_THRESHOLD: THRESH corrected lane errors within 1 ms trigger retirement or SPIRE_FAIL. (R65) -/
  | spireErrorThreshold (t : BitVec 3) (spire : BitVec 5) (errors : BitVec 16)
  /-- SPIRE_LANE_FAIL: An uncorrectable lane failure triggers spire retirement. (R65) -/
  | spireLaneFail (t : BitVec 3) (spire : BitVec 5)
  /-- SPRQ_DECIDE: An SPRQ write with ACTION 0 retires a spire by spare or carrier as R65 decides. (R64) -/
  | sprqDecide (t : BitVec 3) (v : BitVec 64)
  /-- SPRQ_SPARE: An SPRQ write retires a spire onto a named spare. (R64) -/
  | sprqSpare (t : BitVec 3) (v : BitVec 64)
  /-- SPRQ_REROUTE: An SPRQ write retires a spire through a named carrier. (R64) -/
  | sprqReroute (t : BitVec 3) (v : BitVec 64)
  /-- SPIRE_RETIREMENT: After the hold a retired spire is spared or rerouted and its feature bit cleared. (R65) -/
  | spireRetirement (t : BitVec 3) (spire : BitVec 5)
  /-- BUFFER_MIGRATION: Once old accesses are performed a buffer is shrunk as needed and moved to another check core. (R67) -/
  | bufferMigration (t : BitVec 3) (spire : BitVec 5)
  /-- SENSOR_SAMPLE: A thermal sensor reading crossing a limit steps the clock or traps THERMAL. (R396) -/
  | sensorSample (t : BitVec 3) (sensor : BitVec 2) (reading : BitVec 16)
  /-- THERMAL_STEP_TIMER: Each 2 ms above warning, or the assisted deadline, raises the clock step. (R362) -/
  | thermalStepTimer (t : BitVec 3)
  /-- THERMAL_RELEASE_TIMER: Each 10 ms below release lowers the clock step. (R362) -/
  | thermalReleaseTimer (t : BitVec 3)
  /-- POWER_THROTTLE_ADJUST: Every 1 µs the dispatcher raises or lowers the withheld-cycle count against the power share. (R363) -/
  | powerThrottleAdjust (t : BitVec 3) (milliwatts : Nat)
  /-- SOFT_ERROR_AT_REST: An ECC error in a register, tile or buffer at rest is corrected or poisons the cell. (R378) -/
  | softErrorAtRest (place : ErrorPlace) (uncorrectable : Bool)
  /-- SUPERVISOR_TRAP_ENTRY: With IE set and the queue non-empty at a group end, the supervisor core enters its trap handler. (R369) -/
  | supervisorTrapEntry (t : BitVec 3)
  /-- HELD_TRAP_RETRY: A trap held at its source enters the event queue when a place frees. (R369) -/
  | heldTrapRetry (t : BitVec 3)
  /-- CFSYN_RESUME: Writing ACT resume reissues the frozen task's faulting bundle. (R372) -/
  | cfsynResume (t : BitVec 3) (c : BitVec 6)
  /-- CFSYN_SUSPEND: Writing ACT suspend saves the frozen task with its snapshot and makes it READY. (R372) -/
  | cfsynSuspend (t : BitVec 3) (c : BitVec 6)
  /-- TFGO_FILL: Installs a leaf into the trapped core's translation cache and resumes it. (R351) -/
  | tfgoFill (t : BitVec 3) (v : BitVec 64)
  /-- TFGO_FAIL: Makes the trapped XLATE fault TRANSLATION. (R351) -/
  | tfgoFail (t : BitVec 3) (v : BitVec 64)
  /-- TKILL_TASK: Kills one task. (R351) -/
  | tkillTask (t : BitVec 3) (v : BitVec 64)
  /-- TKILL_CONTEXT_TOWER: Kills every task of a context on this tower. (R351) -/
  | tkillContextTower (t : BitVec 3) (v : BitVec 64)
  /-- TKILL_CONTEXT_PACKAGE: Kills every task of a context in the package. (R351) -/
  | tkillContextPackage (t : BitVec 3) (v : BitVec 64)
  /-- SEVW: Sets the EVP of a named task. (R351) -/
  | sevw (t : BitVec 3) (v : BitVec 64)
  /-- SVCR: Answers a task waiting in SVC with SVCV. (R351) -/
  | svcr (t : BitVec 3) (v : BitVec 64)
  /-- OTW: Checks a staged entry and writes it, revoking records loaded from it. (R83) -/
  | otw (t : BitVec 3) (v : BitVec 64)
  /-- OTW_BUSY_CLEAR: BUSY clears once every access through revoked records has been performed. (R83) -/
  | otwBusyClear (t : BitVec 3)
  /-- XINV_PAGE: Invalidates translations and handles of one page of a context. (R87) -/
  | xinvPage (t : BitVec 3) (v : BitVec 64)
  /-- XINV_CONTEXT: Invalidates translations and handles of one context. (R87) -/
  | xinvContext (t : BitVec 3) (v : BitVec 64)
  /-- XINV_ALL: Invalidates translations and handles of all contexts. (R87) -/
  | xinvAll (t : BitVec 3) (v : BitVec 64)
  /-- XINV_DONE: XINVST clears once all towers are done and cleared-handle accesses performed. (R87) -/
  | xinvDone
  /-- VBD_ENABLE: Enables a versioned buffer descriptor, zeroing slots on owner change. (R41) -/
  | vbdEnable (t : BitVec 3) (c : BitVec 6) (n : BitVec 3) (v : BitVec 64)
  /-- VBD_DISABLE: Disables a buffer, freeing slots and failing waiters with VERSION_LOST. (R41) -/
  | vbdDisable (t : BitVec 3) (c : BitVec 6) (n : BitVec 3) (v : BitVec 64)
  /-- CFM_WRITE: Sets or clears core feature bits, pre-empting tasks that need a cleared bit. (R150) -/
  | cfmWrite (t : BitVec 3) (c : BitVec 6) (v : BitVec 64)
  /-- BUD_WRITE: Writes a context's tower budget, letting waiting tasks be placed when above zero. (R148) -/
  | budWrite (t : BitVec 3) (ctx : BitVec 12) (v : BitVec 64)
  /-- FRMCFG_WRITE: Sets frame period and ticks per frame, effective at the next frame start. (R179) -/
  | frmcfgWrite (v : BitVec 64)
  /-- TOFS_WRITE: Moves device time, skipping passed stream check points. (R187) -/
  | tofsWrite (v : BitVec 64)
  /-- HCW_WRITE: Opens or closes the host-command window. (R195) -/
  | hcwWrite (t : BitVec 3) (v : BitVec 64)
  /-- REGISTER_WRITE: A write to a system register with no behaviour of its own stores its fields under R6. (R348) -/
  | registerWrite (a : Agent) (n : BitVec 12) (v : BitVec 64)
  /-- HOST_POSTED_WRITE: A host memory write request is performed in arrival order and may trigger a watch. (R380) -/
  | hostPostedWrite (bar : BitVec 3) (off : BitVec 21) (bytes : List (BitVec 8))
  /-- HOST_READ: A host read returns the value at the home. (R112) -/
  | hostRead (bar : BitVec 3) (off : BitVec 21) (n : Nat)
  /-- HOST_ATOMIC_REQUEST: A host atomic or BAR-crossing request completes with Unsupported Request. (R380) -/
  | hostAtomicRequest (bar : BitVec 3) (off : BitVec 21)
  /-- PLATCTL_WRITE: Sets CHIPID and LOCK, fixing the platform configuration. (R381) -/
  | platctlWrite (v : BitVec 64)
  /-- RESUME_WRITE: Resumes halted supervisor cores. (R381) -/
  | resumeWrite (v : BitVec 64)
  /-- CONTROL_WINDOW_WRITE: A host write to HOSTTOP, decoders, LINKMAP, grant, landing or PTP tables, discarded while locked. (R381) -/
  | controlWindowWrite (off : BitVec 16) (v : BitVec 64)
  /-- LINK_TRAINING: A Clozer link trains, learns its peer CHIPID and comes up if LINKMAP agrees. (R387) -/
  | linkTraining (link : BitVec 4) (trained : Bool) (peer : BitVec 4)
  /-- PACKAGE_RESET: All registers take reset values, CYC restarts and bring-up begins. (R394) -/
  | packageReset
  /-- PCIE_LINK_TRAIN: The PCIe link trains and BAR4 becomes readable. (R394) -/
  | pcieLinkTrain
  /-- AKNEL_VERIFY: Aknel verifies the Malaskun image and platform block, or stops bring-up. (R391) -/
  | aknelVerify (firmware platform : Image)
  /-- DRAM_SPIRE_TRAINING: DRAM and spires train, failing spires are retired. (R394) -/
  | dramSpireTraining (t : BitVec 3) (failing : BitVec 32)
  /-- MALASKUN_START: Malaskun is copied into each live tower and the supervisor cores start. (R394) -/
  | malaskunStart (adr : BitVec 36) (entry : BitVec 64)
  /-- ATTESTATION_REQUEST: Aknel signs an attestation report over a nonce. (R393) -/
  | attestationRequest (nonce : List (BitVec 8))
  /-- ACCESS_PERFORMED_AT_HOME: A load, store, atomic or BLD issued through MGL or MTW is performed at its home after its path
  latency, and a load's result is then written into its scoreboarded destination. (R35) -/
  | accessPerformedAtHome (access : Nat) (granule : Option Nat) (err : DataError)
  /-- PTP_MASTER_LOST: When the PTP time unit loses its master, LOCK falls to 0 while PORT and OFFSET keep their last measured
  values. (R178) -/
  | ptpMasterLost
  deriving DecidableEq, Repr

end Sys2Proof
end

