-- ==== Sys2Proof/Machine/State.lean ====
section
/-!
DEFINITION. The state of one Goryx G8 package: every piece of architectural state the spec names, as plain data, and the
state right after package reset. INVENTORY.md lists each with its rule and reset value.
-/
namespace Sys2Proof.Machine

/-- The model's step never ends a run: a fault of the device is a state of the device (a frozen core and its syndrome,
R372; the supervisor's trap entry or halt, R369), and every row of the opcode table has an effect. So no reason exists. -/
inductive Fault where
  deriving DecidableEq, Repr

/-- Why the model would give an instruction no meaning. -/
inductive Refusal where
  /-- The instruction of that mnemonic has no meaning in this model yet. Raised only by an arm of `exec`; safe: nothing is
  claimed of it. -/
  | notModelled (mnemonic : String)
  deriving DecidableEq, Repr

/-- A finite map by number, as a list of pairs with strictly rising keys. -/
abbrev FMap (α : Type) := List (Nat × α)

/-! ### Faults of the device -/

/-- The fault and trap codes of R367. -/
inductive FCode where
  | illegalBundle
  | illegalOpcode
  | illegalOperand
  | featureAbsent
  | priv
  | groupOverlong
  | fetch
  | noncanonical
  | translation
  | handleStale
  | rights
  | bounds
  | misaligned
  | versionLost
  | tileInvalid
  | softwareTrap
  | uncorrected
  | budget
  | translationAssist
  | watchRunaway
  | thermal
  deriving DecidableEq, Repr

/-- What a fault records: its code, class, FADR, DETAIL and slot (R365 to R367). -/
structure FaultInfo where
  code : FCode
  cls : BitVec 4
  adr : Word
  detail : BitVec 16
  slot : BitVec 8
  tile : Option Nat               -- the tile that the failing MACC also invalidates (R315)
  deriving DecidableEq, Repr

/-! ### The state of a task (R143) -/

/-- A buffer record register: the 256 bits of R80, whether it was ever loaded (R84) and whether it is revoked (R83). -/
structure Rec where
  bits : BitVec 256
  loaded : Bool
  revoked : Bool
  deriving DecidableEq, Repr

/-- A handle register: the 128 bits of R85 and PA[51:16] held beside them. -/
structure Handle where
  bits : BitVec 128
  pa : BitVec 36
  deriving DecidableEq, Repr

/-- The latch rings of R226. -/
inductive Ring where
  | vec
  | mtx
  | mls
  | gat
  | sca
  | scb
  deriving DecidableEq, Repr

/-- An element format: code of R196 and width k of R197 (0 where the code has none). -/
structure Fmt where
  code : BitVec 4
  k : Nat
  deriving DecidableEq, Repr

/-- The index part of ga (R309): format, record number, 32 row offsets then 32 side offsets. -/
structure GaIndex where
  fmt : Option Fmt
  recd : Nat
  offs : List Nat
  deriving DecidableEq, Repr

/-- The data part of ga (R310): its format, 32 rows of 32 operands, an exponent for each row, and and the FADR of its
poison, if any (R378). -/
structure GaData where
  fmt : Option Fmt
  a : List Int
  ea : List Int
  poisoned : Option Word
  deriving DecidableEq, Repr

/-- Where a result goes, with its value. A scalar 0 is discarded (R225). -/
inductive Dest where
  | scalar (r : Nat) (x : Word)
  | vector (r : Option Nat) (x : VReg)
  | pred (r : Nat) (x : Pred)
  | flag (r : Nat) (x : Bool)
  | target (r : Nat) (x : Word)
  | base (r : Nat) (x : Word)
  | handle (r : Nat) (x : Handle)
  | record (r : Nat) (x : Rec)
  | gaIndex (x : GaIndex)
  | gaData (x : GaData)
  deriving DecidableEq, Repr

/-- A result due at an issued-bundle count: written before the bundle of that count reads its operands (R237). `born` and
`slot` say which syllable issued it (R239, R221); `flags` are the FPS flags it raises when written (R212); `poisoned` is the
FADR that reading poisoned data reports (R58, R378). -/
structure Due where
  due : Nat
  born : Nat
  slot : Nat
  dst : Dest
  ring : Option Ring
  flags : BitVec 3
  poisoned : Option Word
  late : Option Nat := none       -- the MLS access that is still to fill it (R33)
  deriving DecidableEq, Repr

/-- A latch ring's vector entries, newest first, each with its poison. -/
abbrev VRing := List (VReg × Option Word)

/-- The latch rings of a core's task (R226). -/
structure Rings where
  vec : VRing
  mtx : VRing
  mls : VRing
  gat : VRing
  sca : List Word
  scb : List Word
  deriving DecidableEq, Repr

/-- A transfer in progress: target, delay bundles still to issue, drain mark (R251 to R253), and the link register still to be
written where the address after the last delay bundle was not yet known (DESIGN CHOICE, log 19). -/
structure Transfer where
  target : Word
  left : Nat
  drain : Bool
  link : Option Nat
  deriving DecidableEq, Repr

/-- A hardware loop counter (R255). `order` is its place in the activation order, greatest innermost. -/
structure LoopSt where
  count : Word
  active : Bool
  start : Word
  stop : Word
  order : Nat
  deriving DecidableEq, Repr

/-- The affine generator's state (R289). `next` is the issued-bundle count of the next step. -/
structure Agu where
  count : List (BitVec 16)
  stride : List Word
  ind : Bool
  indd : BitVec 2
  itab : BitVec 20
  ilen : Word
  iflag : BitVec 4
  run : Bool
  gb : BitVec 4
  gk : BitVec 6
  gp : Nat
  idx : List Nat
  next : Nat
  deriving DecidableEq, Repr

/-- The open block of a matrix array: its tile, the block partials (row r, column c at 256 r + c) and the shift count
(R311). -/
structure Block where
  tile : Nat
  p : List Int
  s : Nat
  deriving DecidableEq, Repr

/-- The matrix array's state (R311). A tile's elements stand at 256 r + c; a list that ends early holds zeros. -/
structure Arr where
  afmt : Option Fmt
  bfmt : Option Fmt
  cols : Bool
  half : Bool
  a : List Int
  ea : List Int
  e : List Nat
  blk : Option Block
  x : List Int
  valid : List Bool
  z : List (List Int)
  deriving DecidableEq, Repr

/-- Which macro an entry of the sequencer's queue is (R320). -/
inductive MacroKind where
  | mmt
  | matt
  deriving DecidableEq, Repr

/-- How a macro failed, while its error record waits in the MLS slot for the accesses ordered before it (R95, R215): the place of the
record among the accesses, CODE, BADW, FCODE and FADDR. -/
structure MacroEnd where
  id : Nat
  code : Nat
  badw : Nat
  fcode : Nat
  fadr : Word
  deriving DecidableEq, Repr

/-- A queued macro (R320 to R327): bound generation and format record, operands taken at issue, and progress.
`step` counts K blocks or pages, `beat` the beats within a K block, `st` the partial softmax states of MATT, one segment
register image a row. `fail` says that it has failed. -/
structure Macro where
  kind : MacroKind
  gen : BitVec 16
  record : BitVec 512
  z : Nat
  block : Word
  request : Word
  status : Nat
  bundle : Word
  id : Nat
  born : Nat                      -- the issued-bundle count of its bundle (R239)
  flags : BitVec 3                -- the flags that an MATT's results raise when they are written (R212)
  begun : Bool
  step : Nat
  beat : Nat
  st : List (List (BitVec 32))
  fail : Option MacroEnd
  deriving DecidableEq, Repr

/-- By which path a task was launched (R142, R143). -/
inductive Path where
  | timetable
  | watch
  | spawn
  | supervisor
  deriving DecidableEq, Repr

/-- What the launched task descends from: nothing more, a timetable entry and its release frame (R359), a watch entry
(R191), a stream tick's slot. -/
inductive Source where
  | plain
  | timetable (entry : Nat) (frame : BitVec 32)
  | watch (entry : Nat)
  | tick (slot : Nat)
  deriving DecidableEq, Repr

/-- The states of a task that is not ENDED (R152). -/
inductive TaskStatus where
  | ready
  | placed
  | suspended
  deriving DecidableEq, Repr

/-- What a poisoned cell of a task is (R378): a scalar register, a vector register, a tile or a record register. -/
inductive PoisonCell where
  | scalar (r : Nat)
  | vector (r : Nat)
  | tile (r : Nat)
  | record (r : Nat)
  deriving DecidableEq, Repr

/-- What has become of a version operation that waits at its buffer's home (R45, R46): nothing yet, its result, or its fault. -/
inductive VerEnd where
  | waiting
  | granted (x : Word)
  | failed (c : FCode)
  deriving DecidableEq, Repr

/-- Does a wait outlive a fault of its bundle: has it not failed? -/
def VerEnd.lives : VerEnd → Bool
  | .failed _ => false
  | _ => true

/-- A VOPEN, or a VHOLD where `hold`, that a task has waiting at a buffer's home: the buffer's name, and what became of it. -/
structure VerWait where
  name : Word
  hold : Bool
  res : VerEnd
  deriving DecidableEq, Repr

/-- The whole visible state of a task, and of a supervisor core's registers. -/
structure Task where
  num : BitVec 32
  ctx : BitVec 12
  home : BitVec 3                 -- tower whose queues and save slots hold it
  desc : BitVec 256               -- its descriptor (R140)
  descIndex : Nat
  member : Nat                    -- member index in its gang (R141)
  gang : List (BitVec 32)         -- the task numbers of its gang in member order; empty for a solo task
  status : TaskStatus
  placedOnce : Bool               -- has it been placed before?
  path : Path
  source : Source
  release : Word                  -- release tick, in CYC (R364)
  pc : Word
  s : FMap Word
  v : FMap VReg
  q : FMap Pred
  c : BitVec 16
  t : FMap Word
  a : FMap Word
  loops : List LoopSt
  b : FMap Rec
  h : FMap Handle
  fps : BitVec 3
  earea : BitVec 14
  tbud : Word
  counted : Bool                  -- is TBUD counted (R148)?
  evp : Bool
  evLast : Option (Word × Bool)   -- the CYC of the last event, and whether EVP stood before that cycle (R147)
  issued : Nat                    -- bundles issued by the task (R237)
  group : Nat                     -- bundles issued in the current group (R145)
  rings : Rings
  due : List Due
  pend : Option Transfer
  skip : Option Word              -- where a LOOP of count 0 goes on, until its bundle has issued (R255)
  agu : Agu
  gaI : GaIndex
  gaD : GaData
  arr : Arr
  macros : List Macro
  poison : List (PoisonCell × Word)  -- poisoned cells, with the FADR that reading reports
  waitTok : Option Nat            -- the token that a WAITC waits for (R285)
  tokFail : List (Nat × FCode × Word)  -- the failed chunks of that token, where it was released meanwhile (R286)
  verWait : Option VerWait        -- a VOPEN or VHOLD that waits
  svcReg : Option Nat             -- waiting in SVC for the answer to this scalar register (R349)
  svcVal : Option Word            -- the answer recorded while the task was away (R351)
  slot : Option Nat               -- the save slot it holds (R375)
  lastCore : Option (BitVec 6)    -- the core it was placed on last (R319)
  drainTo : Option Bool           -- a transfer's drain that waits for an MLS access, and whether its group has ended (R253)
  lostStore : Option (Word × Nat) -- a store of it in flight met an unreachable channel: what FADR reports, and the slot (R65)
  trapDue : BitVec 2              -- causes of the budget trap due at this group boundary (R149)
  frozenSave : Bool               -- saved by ACT suspend with its snapshot (R372)
  epoch : Nat                     -- translation epoch of its context at the save (R88)
  snap : Nat                      -- bundles issued at the last freeze or save: what was due then stands in the core's buffer (R16, R372, R374)
  banks : List (BitVec 16 × FMap (BitVec 512))  -- the saved control-store banks of the generations of its macros (R327)
  deriving DecidableEq, Repr

/-! ### Cores -/

/-- A translation of a core's translation cache (R86). -/
structure TcEntry where
  ctx : BitVec 12
  size : BitVec 2
  vpage : BitVec 36
  leaf : BitVec 64
  deriving DecidableEq, Repr

/-- A 128-byte line of a core's instruction cache, tagged by context (R22, R349). -/
structure IcLine where
  ctx : BitVec 12
  line : Nat
  bytes : List Byte
  deriving DecidableEq, Repr

/-- The state of a version slot (R43). -/
inductive SlotState where
  | free
  | opened
  | closed
  deriving DecidableEq, Repr

/-- A version slot (R43). -/
structure VSlot where
  st : SlotState
  version : BitVec 32
  hold : BitVec 4
  rel : BitVec 4
  deriving DecidableEq, Repr

/-- An operation that waits at a buffer's home (R45, R50): the agent and the task that issued it, whether it is a VHOLD, and the
version that a VHOLD waits for (0 while there is none). -/
structure VWait where
  who : Agent
  num : BitVec 32
  hold : Bool
  v : BitVec 32
  deriving DecidableEq, Repr

/-- A versioned buffer of a check core: descriptor (R40), slots, NEWEST, how many versions were sealed since enable (R43), and
the operations that wait there, in the order in which they arrived (R49). -/
structure VBuf where
  desc : Word
  slots : List VSlot
  newest : BitVec 32
  count : Nat
  waits : List VWait := []
  deriving DecidableEq, Repr

/-- A core's beat rate in the current grant window (R60, R61). -/
inductive Rate where
  | full
  | half
  deriving DecidableEq, Repr

/-- A core of a tower. `task` is the PLACED task while `live`; for the supervisor core its registers. -/
structure CoreSt where
  live : Bool
  task : Task
  frozen : Bool
  fsyn : Word
  fadr : Word
  fbnd : Word
  fslt : Word
  cfm : Word
  fused : Word                    -- feature bits that the fuses clear (R150)
  tc : List TcEntry
  ic : List IcLine
  bank0 : FMap (BitVec 512)       -- control store (R321)
  bank1 : FMap (BitVec 512)
  gen0 : BitVec 16
  gen1 : BitVec 16
  cur1 : Bool                     -- is bank 1 current?
  reserved : Option (BitVec 32)   -- reserved for the gang of this lead task (R356, R357), or for this solo task (R358)
  asked : Bool                    -- an idle core that found nothing waits for an entry to be written (R355)
  preempt : Bool                  -- a pre-emption is requested at the next group end
  kill : Bool                     -- a kill is requested at the next group end
  suspend : Bool                  -- ACT suspend waits for the conditions of R111 (R372)
  thawed : Option Word            -- the CYC at which its last freeze was resolved (R373)
  vbd : List VBuf
  rate : Rate
  lost : Bool                     -- lost the previous grant window (R60)
  macced : Bool                   -- issued an MACC in the present window
  masked : Bool                   -- has an MACC waiting to issue
  asking : Bool                   -- asked for the present window
  lastMacc : Word                 -- CYC of its last MACC (R61)
  throttle : Nat                  -- withheld cycles in every 16 (R363)
  deriving DecidableEq, Repr

/-- A supervisor core's own registers beside those of `CoreSt` (R350, R351, R369). -/
structure SupSt where
  inReset : Bool
  halted : Bool
  evBit : Bool
  evLast : Option (Word × Bool)   -- the last cycle that brought an event, and whether WFE could issue before it (R147, R263)
  csel : Word
  tsel : Word
  sepc : Word
  stvec : Word
  sstat : Word
  hsel : Word
  crpy : FMap Word
  deriving DecidableEq, Repr

/-! ### Towers -/

/-- An entry of a supervisor event queue or of the status log: FSYN, FADR, FBND, FSLT (R369, R384). -/
structure EvEntry where
  fsyn : Word
  fadr : Word
  fbnd : Word
  fslt : Word
  deriving DecidableEq, Repr

/-- A launch that waits for its descriptors (R139, R142, R352). `reply` is the spawner and the register that receives the
number or the refusal (R341). -/
structure Launch where
  id : Nat
  ctx : BitVec 12
  index : Nat
  coord : BitVec 48
  arg : Word
  path : Path
  source : Source
  release : Word
  reply : Option (Agent × BitVec 32 × Nat × Nat)
  after : List Nat                -- the spawner's accesses that come before the task's (R110)
  deriving DecidableEq, Repr

/-- An entry of a ready queue (R352, R353, R357): bank, lead task, entry CYC, age, failures, whether it is in back-off. -/
structure REntry where
  num : BitVec 32
  bank : Nat
  entry : Word
  age : Nat
  fails : Nat
  backoff : Option Word           -- the CYC at which the delay ends
  skip : Bool                     -- its restore failed: passed over until an entry is written (R375)
  deriving DecidableEq, Repr

/-- A drain claim of a pressing gang on columns of a cluster (R357). -/
structure Claim where
  lead : BitVec 32
  cluster : Nat
  col : Nat
  deriving DecidableEq, Repr

/-- A trigger on its way to the watch unit (R191, R193): the entry, the first byte of the write inside its range, and the first
byte of the write. -/
structure Trig where
  entry : Nat
  first : Nat
  start : Nat
  deriving DecidableEq, Repr

/-- A slip record (R360). -/
structure Slip where
  frame : BitVec 32
  cause : BitVec 2
  entry : BitVec 14
  excess : BitVec 32
  deriving DecidableEq, Repr

/-- Whether a spire is to be retired onto a decided path, a named spare or a named carrier (R64). -/
inductive RetireAction where
  | decide
  | spare (n : BitVec 2)
  | reroute (n : BitVec 5)
  deriving DecidableEq, Repr

/-- A retirement under way (R65): held until its step 2, then migrating the column's buffers. `old`, `report` gather the
SPIRE_RETIRED run of R371. -/
structure Retire where
  spire : BitVec 5
  action : RetireAction
  moved : Bool
  carrier : BitVec 5
  todo : List Nat
  stamp : Option Nat              -- the first access after the generations were bumped for the buffer in hand (R67)
  report : List (BitVec 32 × BitVec 32 × List (BitVec 32))
  deriving DecidableEq, Repr

/-- A pending OTW write: the entry and the time stamp before which accesses count (R83). -/
structure OtPend where
  ctx : BitVec 12
  index : BitVec 16
  stamp : Nat
  deriving DecidableEq, Repr

/-- The thermal unit of a tower (R361, R362, R396). Times are CYC values. -/
structure Thermal where
  step : BitVec 3
  reading : List (BitVec 16)
  warnAt : Option Word            -- when the next 2 ms step or the assisted deadline falls
  coolAt : Option Word            -- when 10 ms below release have passed
  deriving DecidableEq, Repr

/-- A check point's decision waiting for its tick (R185). -/
structure Fire where
  slot : Nat
  launch : Bool
  arg : Word
  deriving DecidableEq, Repr

/-- A frame that ingress holds for a stream (R137). -/
structure HeldFrame where
  slot : Nat
  seq : BitVec 32
  time : Word
  bytes : List Byte
  deriving DecidableEq, Repr

/-- A frame that ingress is writing into a buffer of its stream's slot (R93, R135): the 64-byte lines of its payload written so far,
and the watch entries in whose range they changed a byte. -/
structure Landing where
  id : Nat
  frame : HeldFrame
  put : List Nat
  hits : List (Nat × Nat)
  deriving DecidableEq, Repr

/-- A tower. -/
structure TowerSt where
  vcsel : Word
  vroot : FMap Word
  otroot : FMap Word
  tkroot : FMap Word
  bud : FMap Word
  otd : List Word
  otPend : Option OtPend
  otSt : BitVec 8
  spFree : BitVec 4
  rerouted : BitVec 32
  spSub : BitVec 32
  spThr : Word
  lostSpires : BitVec 32          -- unreachable channels (R65)
  carriers : FMap Nat             -- carrier of a rerouted spire (R65, R66)
  retires : List Retire
  hcw : Word
  fmr : Word
  tfcore : Word
  tfva : Word
  tfleaf : Word
  svcv : Word
  sup : SupSt
  evq : List EvEntry
  heldTraps : List EvEntry
  log : FMap EvEntry
  wridx : BitVec 32
  serial : BitVec 29
  launches : List Launch
  ready : List REntry
  claims : List Claim
  trigs : List Trig
  mutes : List (Nat × Word)       -- entries muted in hardware mode and the frame of their trap (R193)
  folds : FMap Nat                -- by SERIAL entry, the granule of the first trigger folded into its relaunch (R191)
  stall : Option (BitVec 32)      -- the frame that overran (R359)
  scanned : Option (Word × Nat)   -- the release tick last scanned (R183)
  scanFrom : Option Nat           -- the entry at which a scan goes on that a held launch stopped (R352)
  slips : List Slip
  lastSlip : Option Slip          -- in a stall, the record of the late task placed last (R360)
  fires : List Fire
  checked : List Nat              -- streams whose check point of the coming tick is decided (R185)
  frames : List HeldFrame
  landing : List Landing          -- frames under way into their buffers (R135)
  silent : List Nat               -- streams whose eviction is to begin its steps (R136)
  restores : List Nat             -- restoring streams that the device itself restores (R137, R379)
  noSlot : List Nat               -- restoring streams that have reported that they cannot go on (R137)
  away : List (Nat × Nat)         -- watch entries of evicted streams, with the table entry of the stream (R194)
  thermal : Thermal
  inReset : Bool                  -- held in reset by bring-up (R394)
  discards : Nat                  -- frames the ingress unit discarded (R382)
  overN : List (Nat × BitVec 16)   -- third frames discarded while a stream was away (R137)
  deriving DecidableEq, Repr

/-! ### Accesses, copies and commands in flight -/

/-- A granule event of an access: flat address, length, and byte offset in the register image (R92). -/
structure Gran where
  adr : Nat
  len : Nat
  off : Nat
  deriving DecidableEq, Repr

/-- The operations of R272 and R273 on memory. -/
inductive AtomicOp where
  | amo (op : BitVec 4)
  | cas
  deriving DecidableEq, Repr

/-- What an access in flight does at its home. Destinations name the register that receives the data. `sx` says sign
extension. -/
inductive AccOp where
  | loadS (d : Nat) (n : Nat) (sx : Bool)
  | loadV (r : Nat)
  | store (data : VReg)
  | atomic (op : AtomicOp) (d : Nat) (n : Nat) (x y : Word)
  | bld (b : Nat)
  | mark
  | fence (acq rel : Bool) (scope : Nat)
  deriving DecidableEq, Repr

/-- An access issued and not yet performed, or an ordering entry of the queues (R95, R98, R100, R101). `slot` is the memory
slot; `acq` and `rel` are its ordering form; `recd` and `hnd` say through which record and handle it was checked
(R83, R87). -/
structure Access where
  id : Nat
  who : Agent
  num : BitVec 32
  born : Nat
  slot : Nat
  cls : BitVec 2
  op : AccOp
  grans : List Gran               -- events still to perform
  all : List (Nat × Nat)          -- all byte ranges, for overlap
  home : Option Nat               -- home unit (R94)
  own : Bool                      -- homed on the issuer's own spire (R56)
  acq : Bool
  rel : Option Nat
  buf : VReg                      -- loaded bytes so far
  bad : Option (Nat × Word)       -- the first poisoned byte of the image, with its FADR (R58, R378)
  fadr : Word                     -- the address FADR would hold for its first byte (R58)
  group : Nat                     -- the access of the syllable's first register: one store is one triggering write (R190)
  whole : List (Nat × Nat)        -- all byte ranges of that syllable
  hits : List (Nat × Nat)         -- watch entries, by tower, in whose range a store's events changed a byte (R190)
  recd : Option (BitVec 12 × BitVec 16)
  hnd : Option (BitVec 12 × BitVec 36 × BitVec 2)
  deriving DecidableEq, Repr

/-- The commands of chapter 15, by row. -/
inductive CmdKind where
  | sqopen
  | sqclose
  | sqnode
  | sqchk
  | sqacc
  | sqsave
  | sqrst
  | sqaccAssist
  | kvgrow
  | kvcommit
  | kvroll
  | kvexport
  | poolEnable
  | poolDisable
  | poolPin
  | poolUnpin
  | poolSetent
  | poolAlloc
  | poolFree
  | pfxlook
  | pfxins
  | pfxinsAssist
  | pfxpin
  | stConfigure
  | stDisable
  | stEvict
  | stRestore
  deriving DecidableEq, Repr

/-- One end of a copy: flat address of row 0, row stride in bytes, and what it was checked through (R279, R283). -/
structure CopyEnd where
  adr : Nat
  stride : Int
  recd : Nat
  recBits : Rec
  hnd : Option (Nat × Handle)
  deriving DecidableEq, Repr

/-- A command as it left its bundle: operands A to D, the flat addresses of the blocks that B and D name, its reply line, and what the
blocks were checked through (R329, R330). -/
structure Cmd where
  kind : CmdKind
  a : Word
  b : Word
  c : Word
  d : Word
  block : Nat
  block2 : Nat
  reply : Option Nat              -- flat address of the reply word
  crpy : Option Nat               -- reply register of a supervisor core
  ctx : BitVec 12
  ends : List CopyEnd             -- the blocks as they were checked (R330)
  mode : Option Bool              -- assisted or not, once it has begun (R379)
  posted : Bool                   -- waits for Malaskun (R336, R379)
  deriving DecidableEq, Repr

/-- A piece of work tracked by a token (R104, R281, R288, R329). -/
inductive JobKind where
  | copy (src dst : CopyEnd) (rows len : Nat) (word : Option CopyEnd) (time : Word)
  | pxfer (src : CopyEnd) (chip : BitVec 4) (gs : BitVec 32) (len : Nat) (flag : Option (BitVec 32 × BitVec 32))
  | cmd (c : Cmd)
  deriving DecidableEq, Repr

/-- A chunk that is partly under way (R92): the source granules read so far, by line, the destination lines written already, and the
watch entries in whose range they changed a byte. Of a peer transfer it is a chunk not yet acknowledged, or the last one, written
and waiting for its flag (R388, R389). -/
structure Part where
  chunk : Nat
  got : List (Nat × List Byte)
  put : List Nat
  hits : List (Nat × Nat)
  deriving DecidableEq, Repr

/-- A copy, transfer or command in flight. Bits of `landed` and `failed` stand for chunks; `causes` gives each failed
chunk's fault (R286). `after` holds the accesses that must be performed first (R104). -/
structure Job where
  id : Nat
  who : Agent
  num : BitVec 32
  tok : Nat
  born : Nat
  kind : JobKind
  chunks : Nat
  landed : Word
  failed : Word
  causes : List (Nat × FCode × Word)
  waiting : Bool                  -- a timed copy still in the front end (R283)
  after : List Nat
  parts : List Part := []
  link : Option Nat := none       -- of a peer transfer (R387)
  deriving DecidableEq, Repr

/-- A VSEAL accepted and not yet performed, or a VREL behind one (R46, R48, R49): the buffer's core and number, and its place in
issue order. -/
structure Pending where
  id : Nat
  who : Agent
  core : Agent
  buf : Nat
  after : List Nat
  jobs : List Nat
  rel : Option (BitVec 32)        -- a release of this version that stands behind seals of its core (R49); none for a seal
  deriving DecidableEq, Repr

/-! ### Bus groups, gangs, sequence memory -/

/-- An epoch of a bus as a member configured it (R312, R313): words 1 to 4 of its image, the source kind, the planes of its B
format, the flat addresses of T and S, what they were checked through, and the time stamp of the MCFG. -/
structure BusCfg where
  words : List Word
  src : Nat
  planes : Nat
  t : Nat
  s : Nat
  ends : List CopyEnd
  stamp : Nat
  deriving DecidableEq, Repr

/-- A member of a bus group (R38, R313): its task, its part in the running epoch, the epoch it has asked for, slices taken,
and whether its MACC waits. -/
structure BusMember where
  num : BitVec 32
  cfg : Option BusCfg
  next : Option BusCfg
  taken : Nat
  waits : Bool
  bad : Bool
  deriving DecidableEq, Repr

/-- A bus group (R38): place, the lead task of its gang, its members, the slice of the running epoch delivered last, and the
slices behind it that the bus has read ahead (R313). -/
structure BusGrp where
  tower : BitVec 3
  layer : BitVec 1
  cluster : BitVec 3
  gang : BitVec 32
  members : List BusMember
  slice : Option (Nat × BitVec 2048)
  ahead : List (BitVec 2048)
  deriving DecidableEq, Repr

/-- A gang with its barrier episode (R342): live members, the members that have arrived, the mask and scope of the open
episode, and the waiters whose episode has ended. -/
structure Gang where
  lead : BitVec 32
  members : List (BitVec 32)
  ended : List Nat
  mask : Nat
  scope : Nat
  arrived : List Nat
  passed : List Nat
  barrier : Bool                  -- has a member issued GBAR since placement (R363)?
  deriving DecidableEq, Repr

/-- A registered image (R120, R121): tower and request, the task it was exported for, its flat address, and the FIRST, SINKS
and COUNT of its header. -/
structure ImageReg where
  tower : BitVec 3
  req : Nat
  num : BitVec 32
  adr : Nat
  first : Nat
  sinks : Nat
  count : Nat
  deriving DecidableEq, Repr

/-- A binding of a request to a task (R171). -/
structure Binding where
  tower : BitVec 3
  req : Nat
  num : BitVec 32
  deriving DecidableEq, Repr

/-- What a paged entry belongs to: a page of a request, or an entry of the prefix index. -/
inductive PageRef where
  | request (req page : Nat)
  | index (entry : Nat)
  deriving DecidableEq, Repr

/-- A page-in (R69) or an eviction (R71) in progress: `live` falls when the entry is cleared meanwhile, `copied` holds the 64-byte
granules whose copy has landed already. -/
structure Paging where
  id : Nat
  tower : BitVec 3
  pool : Nat
  ref : PageRef
  old : Nat
  new : Option Nat
  waiters : List (BitVec 32)
  live : Bool
  assisted : Bool
  copied : List Nat := []
  deriving DecidableEq, Repr

/-- The last owner of a range of bytes (R25) (DEDUCED, log 96). -/
structure ORange where
  base : Nat
  len : Nat
  ctx : BitVec 12
  deriving DecidableEq, Repr

/-- A range of pending-zero bytes and whether it is page-tracked (R25, R26). -/
structure ZRange where
  base : Nat
  len : Nat
  page : Bool
  deriving DecidableEq, Repr

/-! ### The package -/

/-- A Clozer link (R387). -/
structure Link where
  up : Bool
  peer : BitVec 4
  deriving DecidableEq, Repr

/-- What the last host read or request got (R112, R380). -/
inductive HostReply where
  | none
  | data (bytes : List Byte)
  | unsupported
  deriving DecidableEq, Repr

/-- An invalidation in progress (R87): scope, page size, page, context, and its time stamp. -/
structure XinvPend where
  scope : Nat
  size : BitVec 2
  vpage : BitVec 36
  ctx : BitVec 12
  stamp : Nat
  deriving DecidableEq, Repr

/-- What a walk found: a leaf of a size, nothing (R76), or an entry that it could not read (R58, R65). -/
inductive WalkEnd where
  | leaf (size leaf : Nat)
  | failed
  | lost (adr : Nat)
  deriving DecidableEq, Repr

/-- A walk on a logic die (R89): its tower and layer, context and 64 KiB region, whether it was begun by a fetch, the cores that
wait for it, whether a walker runs it, the level and table whose entry it reads next, its end once it has one (kept for the cores
that have still to learn of a failure), and the invalidations that it met (R87). -/
structure Walk where
  id : Nat
  tower : BitVec 3
  layer : BitVec 1
  ctx : BitVec 12
  region : BitVec 36
  fetch : Bool
  who : List Agent
  running : Bool
  level : Nat
  table : Nat
  done : Option WalkEnd
  met : List XinvPend
  deriving DecidableEq, Repr

/-- An acknowledgement the receiver sends over a Clozer link (R288, R388). -/
structure PeerAck where
  link : BitVec 4
  adr : BitVec 32
  ok : Bool
  deriving DecidableEq, Repr

/-- A frame configuration that has been in force (R179): the first frame that it governed, with that frame's start, the ticks
counted before it, and the value of FRMCFG. -/
structure FrmRun where
  frame : Word
  start : Word
  ticks : Nat
  cfg : Word
  deriving DecidableEq, Repr

/-- State of the package beside its towers (DEDUCED, log 40) (DESIGN CHOICE, log 100). -/
structure PkgSt where
  cyc : Word
  tofs : Word
  trate : Word
  frame : Word
  fstart : Word
  frmcfg : Word
  frmNow : Word                   -- FRMCFG in force (R179)
  runs : List FrmRun              -- the configurations of all frames so far, newest first (R360, R364)
  lock : Bool
  port : BitVec 1
  stepped : Bool
  offset : BitVec 32
  good : Nat                      -- Sync intervals in a row within 1 µs (R178)
  xinv : Option XinvPend
  epochs : FMap Nat
  window : FMap Word              -- control window, by offset (R381)
  links : List Link
  acks : List PeerAck
  hostReply : HostReply
  msix : BitVec 16                -- MSI-X vectors sent and not yet read by the model's host
  pcieUp : Bool
  step : Nat                      -- bring-up step (R394)
  failed : Bool
  trained : BitVec 8              -- towers whose training is done (R394)
  firmware : List Byte            -- the verified Malaskun image body
  platform : List Byte
  svn : BitVec 32
  newSvn : BitVec 32              -- SVN of the running image, fused once boot completes (R391)
  m0 : BitVec 256                 -- the measurements, the first byte in the low bits (R392)
  m1 : BitVec 256
  m2 : BitVec 256
  resets : Nat                    -- package resets so far: the index of what each one declares (DESIGN CHOICE, log 49, 109)
  report : List Byte              -- the last attestation report (R393)
  deriving DecidableEq, Repr

/-- A step that an agent or a unit of the package tries of its own accord, named as its row of the opcode table; `access` (of a
granule, or of what remains) and `chunkLand` stand for the rows without an error, `suspend` for a save that ACT asked for, `kill`
for a kill that a freeze lets in, `bundleSlow` for a bundle whose MLS accesses meet bank conflicts, `chunkPart` for one granule of a
chunk, `walkStep` for the next load of a page walk (DESIGN CHOICE, log 7, 104). -/
inductive Move where
  | frameStart
  | grantWindow (t : BitVec 3) (cluster : BitVec 3) (col : BitVec 2)
  | releaseTick (t : BitVec 3)
  | streamTick (t : BitVec 3) (slot : BitVec 10)
  | streamCheckPoint (t : BitVec 3) (slot : BitVec 10)
  | streamEviction (t : BitVec 3) (slot : BitVec 10)
  | streamRestore (t : BitVec 3) (slot : BitVec 10)
  | watchTrigger (t : BitVec 3)
  | taskLaunch (t : BitVec 3) (k : Nat) (bank : BitVec 4)
  | gangBackoffExpiry (t : BitVec 3) (num : BitVec 32)
  | pop (t : BitVec 3) (c : BitVec 6) (i j : BitVec 4) (delay : Nat)
  | drainClaimCommit (t : BitVec 3) (cluster : BitVec 3)
  | spireRetirement (t : BitVec 3) (spire : BitVec 5)
  | bufferMigration (t : BitVec 3) (spire : BitVec 5)
  | heldTrapRetry (t : BitVec 3)
  | evictionRetry (t : BitVec 3)
  | otwBusyClear (t : BitVec 3)
  | thermalStepTimer (t : BitVec 3)
  | thermalReleaseTimer (t : BitVec 3)
  | access (id : Nat) (granule : Option Nat)
  | copyIssue (job : Nat)
  | chunkLand (job chunk : Nat)
  | vsealPerform (id : Nat)
  | serveVersions
  | pageInSwitch (k : Nat)
  | evictionSwitch (k : Nat)
  | pagePart (k line : Nat)
  | framePart (t : BitVec 3) (k line : Nat)
  | frameLand (t : BitVec 3) (k : Nat)
  | busEpochStart (t : BitVec 3) (layer : BitVec 1) (cluster : BitVec 3)
  | busAhead (t : BitVec 3) (layer : BitVec 1) (cluster : BitVec 3)
  | backgroundZeroing (unit : Nat)
  | xinvDone
  | budgetTrap (t : BitVec 3) (c : BitVec 6)
  | preemption (t : BitVec 3) (c : BitVec 6)
  | suspend (t : BitVec 3) (c : BitVec 6)
  | kill (t : BitVec 3) (c : BitVec 6)
  | macroBegin (t : BitVec 3) (c : BitVec 6)
  | bundleIssue (a : Agent)
  | bundleSlow (a : Agent)
  | chunkPart (job chunk line : Nat)
  | walkStep (id : Nat)
  | supervisorTrapEntry (t : BitVec 3)
  deriving DecidableEq, Repr

/-- The state of the package. `cur` is the agent whose bundle acts; `moves` holds the steps still to be tried in this cycle and
`inputs` what the outside does next; `free` counts the free values taken; `nextId` numbers accesses and jobs; `slow` says that
the MLS accesses of the bundle that acts meet bank conflicts (R33). These six are the model's own (DESIGN CHOICE, log 6 to 9,
104). -/
structure State where
  mem : List Host.Cell
  zero : List ZRange
  owner : List ORange             -- the last owners of the bytes that the device has allocated (R25)
  cores : FMap CoreSt
  towers : FMap TowerSt
  pkg : PkgSt
  tasks : FMap Task               -- READY and SUSPENDED tasks by number
  gangs : List Gang
  acc : List Access
  jobs : List Job
  seals : List Pending
  buses : List BusGrp
  blocks : List Nat               -- page-table blocks in use, by tower * 11,776 + index (R113)
  pages : List Nat                -- KV pages allocated, by page key (R119)
  freeing : List (Nat × List Nat) -- KV pages freed and the accesses they wait for (R119)
  images : List ImageReg
  binds : List Binding
  pageIns : List Paging
  evicts : List Paging
  evWait : List (BitVec 3 × Nat)  -- pools whose KV_TIER_FULL is posted and still stands (R71)
  merged : List (BitVec 3 × Nat × Nat)  -- a merged request's own page, freed once unbound (R129)
  bad : List Nat                  -- 8-byte granules with an uncorrectable error (R378)
  walks : List Walk               -- page walks queued, running, or failed and not yet learnt of (R89)
  corr : FMap (Nat × Nat)         -- corrected errors of the frame by home: first address, count (R378)
  cur : Agent
  moves : List Move
  inputs : List Instr
  free : Nat
  nextId : Nat
  slow : Bool
  deriving DecidableEq, Repr

/-! ### Reset (R394) -/

/-- An empty set of latch rings. -/
def Rings.empty : Rings := ⟨[], [], [], [], [], []⟩

/-- The generator's state at placement: zero (R289). -/
def Agu.zero : Agu :=
  { count := [0, 0, 0, 0], stride := [0, 0, 0, 0], ind := false, indd := 0, itab := 0, ilen := 0, iflag := 0,
    run := false, gb := 0, gk := 0, gp := 1, idx := [0, 0, 0, 0], next := 0 }

/-- The array's state at placement (R311): no format, X = 0, no open block. Tiles hold zero and are valid (R143, R318). -/
def Arr.zero : Arr :=
  { afmt := none, bfmt := none, cols := false, half := false, a := [], ea := [], e := [], blk := none,
    x := [0, 0, 0, 0, 0, 0, 0, 0], valid := [true, true, true, true, true, true, true, true],
    z := [[], [], [], [], [], [], [], []] }

/-- A loop counter at placement (R255). -/
def LoopSt.zero : LoopSt := ⟨0, false, 0, 0, 0⟩

/-- Registers as at a first placement (R143), with no descriptor: what a core holds before any task (DESIGN CHOICE, log 2)
(DEDUCED, log 84). -/
def Task.blank : Task :=
  { num := 0, ctx := 0, home := 0, desc := 0, descIndex := 0, member := 0, gang := [], status := .placed,
    placedOnce := false, path := .supervisor, source := .plain, release := 0, pc := 0, s := [], v := [], q := [], c := 1,
    t := [], a := [], loops := [LoopSt.zero, LoopSt.zero, LoopSt.zero, LoopSt.zero], b := [], h := [], fps := 0,
    earea := 0x3FFF, tbud := 0, counted := false, evp := false, evLast := none, issued := 0, group := 0, rings := Rings.empty, due := [],
    pend := none, skip := none, agu := Agu.zero, gaI := ⟨none, 0, []⟩, gaD := ⟨none, [], [], none⟩, arr := Arr.zero, macros := [],
    poison := [], waitTok := none, tokFail := [], verWait := none, svcReg := none, svcVal := none, slot := none, lastCore := none, drainTo := none,
    lostStore := none, trapDue := 0,
    frozenSave := false, epoch := 0, snap := 0, banks := [] }

/-- A disabled versioned buffer (R40, R42). -/
def VBuf.off : VBuf := ⟨0, [], 0, 0, []⟩

/-- The number of an agent's core: compute cores at 64 t + c, supervisor cores from 512. -/
def coreKey : Agent → Nat
  | .core t c => 64 * t.toNat + c.toNat
  | .sup t => 512 + t.toNat

/-- The feature mask a core's layer implements (R150): an unfused draft core, check core, supervisor core. -/
def cfmReset (key : Nat) : Word :=
  if 512 ≤ key then 0x0000_0001 else if key % 64 < 32 then 0x0000_019F else 0x0000_01FF

/-- A core at reset. -/
def CoreSt.reset (key : Nat) : CoreSt :=
  { live := false, task := Task.blank, frozen := false, fsyn := 0, fadr := 0, fbnd := 0, fslt := 0xFFFF,
    cfm := cfmReset key, fused := 0, tc := [], ic := [], bank0 := [], bank1 := [], gen0 := 0, gen1 := 0, cur1 := false,
    reserved := none, asked := false, preempt := false, kill := false, suspend := false, thawed := none,
    vbd := [VBuf.off, VBuf.off, VBuf.off, VBuf.off, VBuf.off, VBuf.off, VBuf.off, VBuf.off], rate := .full, lost := false,
    macced := false, masked := false, asking := false, lastMacc := 0, throttle := 0 }

/-- A supervisor core's own registers at reset: in reset until bring-up starts it (R394). -/
def SupSt.reset : SupSt :=
  { inReset := true, halted := false, evBit := false, evLast := none, csel := 0, tsel := 0, sepc := 0, stvec := 0, sstat := 0, hsel := 0,
    crpy := [] }

/-- A tower at reset (DESIGN CHOICE, log 5). -/
def TowerSt.reset : TowerSt :=
  { vcsel := 0, vroot := [], otroot := [], tkroot := [], bud := [], otd := [0, 0, 0, 0], otPend := none, otSt := 0,
    spFree := 0xF, rerouted := 0, spSub := 0, spThr := 0x0100, lostSpires := 0, carriers := [], retires := [], hcw := 0,
    fmr := 0, tfcore := 0, tfva := 0, tfleaf := 0, svcv := 0, sup := SupSt.reset, evq := [], heldTraps := [], log := [],
    wridx := 0, serial := 0, launches := [], ready := [], claims := [], trigs := [], mutes := [], folds := [], stall := none,
    scanned := none, scanFrom := none, slips := [], lastSlip := none, fires := [], checked := [], frames := [], landing := [],
    silent := [], restores := [], noSlot := [], away := [],
    thermal := ⟨0, [0, 0, 0, 0], none, none⟩, inReset := false, discards := 0, overN := [] }

/-- The package's own state at reset. FRMCFG resets to a 1 ms frame of 16 ticks (R179). -/
def PkgSt.reset : PkgSt :=
  { cyc := 0, tofs := 0, trate := 0, frame := 0, fstart := 0, frmcfg := 0x0018_6A00_0000_0010,
    frmNow := 0x0018_6A00_0000_0010, runs := [⟨0, 0, 0, 0x0018_6A00_0000_0010⟩], lock := false, port := 0, stepped := false, offset := 0, good := 0,
    xinv := none, epochs := [], window := [], links := List.replicate 16 ⟨false, 0⟩, acks := [], hostReply := .none,
    msix := 0, pcieUp := false, step := 1, failed := false, trained := 0, firmware := [], platform := [], svn := 0, newSvn := 0,
    m0 := 0, m1 := 0, m2 := 0, resets := 0, report := [] }

/-- The package right after reset (R394): no task runs, every supervisor core is in reset, bring-up stands at step 1. -/
def State.reset : State :=
  { mem := [], zero := [], owner := [], cores := [], towers := [], pkg := PkgSt.reset, tasks := [], gangs := [], acc := [],
    jobs := [], seals := [], buses := [], blocks := [], pages := [], freeing := [], images := [], binds := [], pageIns := [],
    evicts := [], evWait := [], merged := [], bad := [], walks := [], corr := [], cur := .sup 0, moves := [], inputs := [], free := 0,
    nextId := 0, slow := false }

end Sys2Proof.Machine
end

