-- ==== Sys2Proof/Machine/Maps.lean ====
section
/-!
DEFINITION. Finite maps and bytes: the sorted lists that hold registers, units and memory, and little-endian numbers.
-/
namespace Sys2Proof.Machine

/-- The value of a key, if any. -/
def mapGet? {α : Type} : FMap α → Nat → Option α
  | [], _ => none
  | (i, x) :: m, k => if i = k then some x else if k < i then none else mapGet? m k

/-- The value of a key, or a default. -/
def mapGet {α : Type} (d : α) (m : FMap α) (k : Nat) : α :=
  match mapGet? m k with
  | some x => x
  | none => d

/-- Set a key, keeping the keys rising. -/
def mapPut {α : Type} : FMap α → Nat → α → FMap α
  | [], k, y => [(k, y)]
  | (i, x) :: m, k, y =>
    if k < i then (k, y) :: (i, x) :: m else if k = i then (k, y) :: m else (i, x) :: mapPut m k y

/-- Remove a key. -/
def mapDel {α : Type} : FMap α → Nat → FMap α
  | [], _ => []
  | (i, x) :: m, k => if i = k then m else (i, x) :: mapDel m k

/-- Replace element `n` of a list. -/
def setAt {α : Type} : List α → Nat → α → List α
  | [], _, _ => []
  | _ :: l, 0, y => y :: l
  | x :: l, n + 1, y => x :: setAt l n y

/-- Insert a number into a rising list without repeats. -/
def insertNat (n : Nat) : List Nat → List Nat
  | [] => [n]
  | m :: l => if n < m then n :: m :: l else if n = m then m :: l else m :: insertNat n l

/-! ### Memory cells: strictly rising addresses, no cell equal to what an unlisted address reads as -/

/-- The places of a tower pool whose reset contents are all ones: the block maps of the request records (R116) and the bucket
heads of the prefix index (R124), by offset in the pool. -/
def onesAtReset (off : Nat) : Bool :=
  (decide (0x1800000 ≤ off) && decide (off < 0x1A00000) && decide (off % 0x400 / 0x80 = 1)) ||
    (decide (0x2100000 ≤ off) && decide (off < 0x2108000))

/-- What a byte that no cell lists reads as: the reset contents of the pools' tables (R116, R124), and zero elsewhere, where
R25 leaves it open (DESIGN CHOICE, log 1). -/
def unlisted (a : Nat) : Byte := if a < 2 ^ 32 ∧ a / 2 ^ 28 % 2 = 1 ∧ onesAtReset (a % 2 ^ 28) = true then 0xFF else 0

/-- The byte at a flat address. -/
def cellGet : List Host.Cell → Nat → Byte
  | [], k => unlisted k
  | (i, x) :: m, k => if i = k then x else if k < i then unlisted k else cellGet m k

/-- A cell in front of a list, unless it holds what an unlisted address reads as. -/
def cellCons (k : Nat) (y : Byte) (m : List Host.Cell) : List Host.Cell :=
  if y = unlisted k then m else (k, y) :: m

/-- Write a byte, keeping the canonical form. -/
def cellSet : List Host.Cell → Nat → Byte → List Host.Cell
  | [], k, y => cellCons k y []
  | (i, x) :: m, k, y =>
    if k < i then cellCons k y ((i, x) :: m) else if k = i then cellCons k y m else (i, x) :: cellSet m k y

/-- The canonical form of memory: addresses strictly rising from a bound, no cell holding the unlisted byte. -/
def memWfFrom : Nat → List Host.Cell → Bool
  | _, [] => true
  | b, (i, x) :: m => decide (b ≤ i) && decide (x ≠ unlisted i) && memWfFrom (i + 1) m

/-- The canonical form of memory. -/
def Memory.wf (m : List Host.Cell) : Bool := memWfFrom 0 m

/-- Write bytes from an address upwards. -/
def cellsWrite : List Host.Cell → Nat → List Byte → List Host.Cell
  | m, _, [] => m
  | m, a, b :: bs => cellsWrite (cellSet m a b) (a + 1) bs

/-- Read `n` bytes from an address upwards. -/
def cellsRead (m : List Host.Cell) (a : Nat) : Nat → List Byte
  | 0 => []
  | n + 1 => cellGet m a :: cellsRead m (a + 1) n

/-- Set a whole range to the unlisted byte, by dropping its cells. -/
def cellsClear (m : List Host.Cell) (a n : Nat) : List Host.Cell :=
  m.filter (fun c => decide (c.1 < a) || decide (a + n ≤ c.1))

/-! ### Little-endian numbers (R198) -/

/-- The number that little-endian bytes spell. -/
def leNat : List Byte → Nat
  | [] => 0
  | b :: bs => b.toNat + 256 * leNat bs

/-- The `n` little-endian bytes of a number. -/
def leBytes : Nat → Nat → List Byte
  | 0, _ => []
  | n + 1, x => BitVec.ofNat 8 x :: leBytes n (x / 256)

/-- Bits `hi` down to `lo` of a number. -/
def bits (x hi lo : Nat) : Nat := (x >>> lo) % 2 ^ (hi + 1 - lo)

/-- The number with bits `hi` down to `lo` replaced. -/
def setBits (x hi lo v : Nat) : Nat :=
  x - bits x hi lo <<< lo + (v % 2 ^ (hi + 1 - lo)) <<< lo

/-- Bit `i` of a number. -/
def bit (x i : Nat) : Bool := x.testBit i

/-- A 64-bit word of a number. -/
def word (x : Nat) : Word := BitVec.ofNat 64 x

/-- The two's-complement value of the low `n` bits of a number. -/
def signed (n x : Nat) : Int :=
  let y := x % 2 ^ n
  if 2 * y < 2 ^ n then (y : Int) else (y : Int) - 2 ^ n

/-- The low `n` bits of an integer, as a number. -/
def unsign (n : Nat) (x : Int) : Nat := (x % (2 ^ n : Nat)).toNat

/-- Round up to a multiple. -/
def ceilDiv (a b : Nat) : Nat := (a + b - 1) / b

/-- Saturating addition of one in `n` bits (R135, R192). -/
def satInc (n x : Nat) : Nat := if x + 1 < 2 ^ n then x + 1 else 2 ^ n - 1

end Sys2Proof.Machine
end

