-- ==== Sys2Proof/Machine/Flags.lean ====
section
/-!
DEFINITION. Flag computations: the conditions and combinations of CMP (R245), the operations of FOP (R259), votes (R258), and
the sticky flags of FPS with saturation (R199, R211).
-/
namespace Sys2Proof.Machine

/-- The condition of CMP and CMPI (R245). -/
def cmpCond (code : Nat) (a b : Word) : Bool :=
  match code with
  | 0 => decide (a = b)
  | 1 => decide (a ≠ b)
  | 2 => decide (a.toInt < b.toInt)
  | 3 => decide (b.toInt ≤ a.toInt)
  | 4 => decide (a.toNat < b.toNat)
  | 5 => decide (b.toNat ≤ a.toNat)
  | 6 => decide (a &&& b ≠ 0)
  | _ => decide (a &&& b = 0)

/-- The combine mode of CMP (R245). -/
def cmpCombine (mode : Nat) (old cond : Bool) : Bool :=
  match mode with
  | 0 => cond
  | 1 => old && cond
  | _ => old || cond

/-- The flag FOP writes from two flags and a scalar (R259). -/
def fopFlag (op : Nat) (a b : Bool) (c : Word) : Bool :=
  match op with
  | 0 => a && b
  | 1 => a || b
  | 2 => a != b
  | 3 => a && !b
  | 4 => a || !b
  | 5 => a
  | 6 => !a
  | 7 => true
  | 8 => false
  | 9 => decide (c ≠ 0)
  | _ => decide (c = 0)

/-- The low `n` bits of a predicate. -/
def lowLanes (n : Nat) (q : Pred) : Nat := q.toNat % 2 ^ n

/-- VANY over `n` lanes, with an optional mask (R258). -/
def voteAny (n : Nat) (q : Pred) (m : Option Pred) : Bool :=
  match m with
  | none => decide (lowLanes n q ≠ 0)
  | some k => decide (lowLanes n (q &&& k) ≠ 0)

/-- VALL over `n` lanes, with an optional mask (R258). -/
def voteAll (n : Nat) (q : Pred) (m : Option Pred) : Bool :=
  match m with
  | none => decide (lowLanes n (~~~q) = 0)
  | some k => decide (lowLanes n (~~~q &&& k) = 0)

/-- FPS.INV (R211). -/
def fpsInv : BitVec 3 := 1
/-- FPS.OVF (R211). -/
def fpsOvf : BitVec 3 := 2
/-- FPS.SAT (R211). -/
def fpsSat : BitVec 3 := 4

/-- Saturate an integer to `n` bits, signed or unsigned, raising SAT when it changes (R199). -/
def saturate (sg : Bool) (n : Nat) (x : Int) : Nat × BitVec 3 :=
  let lo : Int := if sg then -(2 ^ (n - 1) : Nat) else 0
  let hi : Int := if sg then (2 ^ (n - 1) : Nat) - 1 else (2 ^ n : Nat) - 1
  if x < lo then (unsign n lo, fpsSat) else if hi < x then (unsign n hi, fpsSat) else (unsign n x, 0)

end Sys2Proof.Machine
end

