-- ==== Sys2Proof/WellFormed.lean ====
section
/-!
DEFINITION. Which operand fields an instruction's own words allow: unused fields zero, register codes in range, formats and
immediates within the limits of the instruction's description (spec 11_bundle_encoding.md R222, R225 and chapters 12 to 15).
An ill-formed syllable that acts faults ILLEGAL_OPERAND. Limits on register values, VREGS, TILES and the kind of core are
checked by the machine.
-/
namespace Sys2Proof

/-- A scalar source field: s0 to s63 or a latch (R225). -/
def srcS (c : BitVec 7) : Bool := decide (c.toNat < 80)
/-- A scalar destination field (R225). -/
def dstS (c : BitVec 7) : Bool := decide (c.toNat < 64)
/-- A vector source field: v0 to v639 or a latch (R225). -/
def srcV (c : BitVec 10) : Bool := decide (c.toNat < 640) || decide (1008 ≤ c.toNat)
/-- A vector destination with its no-writeback bit: NWB needs DST = 0 (R225). -/
def dstV (f : VecF) : Bool := if f.nwb = 1 then decide (f.dst = 0) else decide (f.dst.toNat < 640)
/-- A scalar code in the low bits of a vector field (R301). -/
def scaInV (c : BitVec 10) : Bool := decide (c.toNat < 80)
/-- A predicate code in the low bits of a vector field (R225). -/
def predInV (c : BitVec 10) : Bool := decide (c.toNat < 16)
/-- Outside the memory slots the alias-class bits must be zero (R222). -/
def acZero (h : Head) : Bool := decide (h.ac = 0)
/-- An integer element type (R196). -/
def isInt (ty : BitVec 4) : Bool := decide (ty.toNat < 8)
/-- An IEEE element type or bf16 (R196). -/
def isFloat (ty : BitVec 4) : Bool := decide (8 ≤ ty.toNat) && decide (ty.toNat < 11)
/-- An integer or floating element type. -/
def isPlain (ty : BitVec 4) : Bool := decide (ty.toNat < 11)
/-- Bytes of a plain element (R196). -/
def elemSize (ty : BitVec 4) : Nat :=
  match ty.toNat with
  | 0 => 1
  | 1 => 2
  | 2 => 4
  | 3 => 8
  | 4 => 1
  | 5 => 2
  | 6 => 4
  | 7 => 8
  | 8 => 2
  | 9 => 2
  | 10 => 4
  | _ => 1
/-- Lanes of a plain element type (R296). -/
def lanes (ty : BitVec 4) : Nat := 2048 / elemSize ty
/-- S3 of an instruction that allows masking: a predicate when M = 1, else zero (R296). -/
def maskOk (f : VecF) : Bool := if f.md.getLsbD 3 then predInV f.s3 else decide (f.s3 = 0)

/-- SREG with D, A, B and nothing else. -/
def wfDAB (h : Head) (f : SReg) : Bool :=
  acZero h && dstS f.d && srcS f.a && srcS f.b && decide (f.c = 0) && decide (f.f = 0) && decide (f.x = 0)
/-- ADD and SUB: a shift count in X[2:0] (R241). -/
def wfAddSub (h : Head) (f : SReg) : Bool :=
  acZero h && dstS f.d && srcS f.a && srcS f.b && decide (f.c = 0) && decide (f.f = 0) && decide (f.x.toNat < 8)
/-- SREG with D and A (R247). -/
def wfDA (h : Head) (f : SReg) : Bool :=
  acZero h && dstS f.d && srcS f.a && decide (f.b = 0) && decide (f.c = 0) && decide (f.f = 0) && decide (f.x = 0)
/-- SREG with no operand (R260, R262). -/
def wfNone (h : Head) (f : SReg) : Bool :=
  acZero h && decide (f.d = 0) && decide (f.a = 0) && decide (f.b = 0) && decide (f.c = 0) && decide (f.f = 0) &&
    decide (f.x = 0)
/-- SEL names a flag too (R241). -/
def wfSel (h : Head) (f : SReg) : Bool :=
  acZero h && dstS f.d && srcS f.a && srcS f.b && decide (f.c = 0) && decide (f.x = 0)
/-- The immediate forms (R242). -/
def wfImm (h : Head) (f : SImm) : Bool := acZero h && dstS f.d && srcS f.a
/-- The shifts by an immediate (R242). -/
def wfShImm (h : Head) (f : SImm) : Bool := acZero h && dstS f.d && srcS f.a && decide (f.imm.toNat < 64)
/-- ADDPC has no A (R248). -/
def wfAddpc (h : Head) (f : SImm) : Bool := acZero h && dstS f.d && decide (f.a = 0)
/-- The funnel shifts: n from C or from X (R244). -/
def wfFunnel (h : Head) (f : SReg) : Bool :=
  acZero h && dstS f.d && srcS f.a && srcS f.b && decide (f.f = 0) && decide (f.x.toNat < 128) &&
    (if f.x.getLsbD 6 then decide (f.c = 0) else srcS f.c && decide (f.x = 0))
/-- CMP (R245). -/
def wfCmp (h : Head) (f : SReg) : Bool :=
  acZero h && decide (f.d = 0) && srcS f.a && srcS f.b && decide (f.c = 0) && decide (f.f ≠ 0) && decide (f.x.toNat < 24)
/-- CMPI: condition and flag in D (R245). -/
def wfCmpi (h : Head) (f : SImm) : Bool := acZero h && decide (f.d.toNat % 16 ≠ 0) && srcS f.a
/-- The bit-field descriptors (R246). -/
def fieldOk (x : BitVec 17) : Bool :=
  decide (x.toNat < 4096) && decide (x.toNat % 64 + (x.toNat / 64 + 1) ≤ 64)
/-- BFX and BFXU (R246). -/
def wfBfx (h : Head) (f : SReg) : Bool :=
  acZero h && dstS f.d && srcS f.a && decide (f.b = 0) && decide (f.c = 0) && decide (f.f = 0) && fieldOk f.x
/-- BFI (R246). -/
def wfBfi (h : Head) (f : SReg) : Bool :=
  acZero h && dstS f.d && srcS f.a && srcS f.b && decide (f.c = 0) && decide (f.f = 0) && fieldOk f.x
/-- LI (R248). -/
def wfLi (h : Head) (f : SLong) : Bool := acZero h && dstS f.d
/-- LIH (R248). -/
def wfLih (h : Head) (f : SLong) : Bool := acZero h && dstS f.d && decide (f.imm.toNat < 2 ^ 22)
/-- PHASH: eight registers from B (R249). -/
def wfPhash (h : Head) (f : SReg) : Bool :=
  acZero h && dstS f.d && srcS f.a && decide (1 ≤ f.b.toNat) && decide (f.b.toNat ≤ 56) && srcS f.c && decide (f.f = 0) &&
    decide (f.x = 0)
/-- PBR (R250). -/
def wfPbr (h : Head) (f : Xfr) : Bool := acZero h && decide (f.dly = 0) && decide (f.a = 0)
/-- PBRR (R250). -/
def wfPbrr (h : Head) (f : SReg) : Bool :=
  acZero h && decide (f.d = 0) && srcS f.a && decide (f.b = 0) && decide (f.c = 0) && decide (f.f = 0) &&
    decide (f.x.toNat < 8)
/-- XFER (R251). -/
def wfXfer (h : Head) (f : Xfr) : Bool := acZero h && decide (f.a = 0) && decide (f.imm = 0)
/-- XFERL (R251). -/
def wfXferl (h : Head) (f : Xfr) : Bool := acZero h && dstS f.a && decide (f.imm = 0)
/-- LOOP (R255). -/
def wfLoop (h : Head) (f : SReg) : Bool :=
  acZero h && decide (f.d.toNat < 4) && srcS f.a && decide (f.b = 0) && decide (f.c = 0) && decide (f.f = 0) &&
    decide (f.x ≠ 0)
/-- LOOPI (R255). -/
def wfLoopi (h : Head) (f : SReg) : Bool :=
  acZero h && decide (f.d.toNat < 4) && decide (f.c = 0) && decide (f.f = 0) && decide (f.x ≠ 0)
/-- BREAK (R257). -/
def wfBreak (h : Head) (f : SReg) : Bool :=
  acZero h && decide (f.d.toNat < 4) && decide (f.a = 0) && decide (f.b = 0) && decide (f.c = 0) && decide (f.f = 0) &&
    decide (f.x = 0)
/-- VANY and VALL (R258). -/
def wfVote (h : Head) (f : SReg) : Bool :=
  acZero h && decide (f.d = 0) && decide (f.a.toNat < 16) && decide (f.b.toNat < 16) && decide (f.c = 0) &&
    decide (f.f ≠ 0) && decide (f.x.toNat < 8) && (f.x.getLsbD 2 || decide (f.b = 0))
/-- FOP (R259). -/
def wfFop (h : Head) (f : SReg) : Bool :=
  acZero h && decide (f.d = 0) && decide (f.f ≠ 0) && decide (f.x.toNat ≤ 10) && decide (f.a.toNat < 16) &&
    decide (f.b.toNat < 16) &&
    (if f.x.toNat ≤ 4 then decide (f.c = 0)
     else if f.x.toNat ≤ 6 then decide (f.b = 0) && decide (f.c = 0)
     else if f.x.toNat ≤ 8 then decide (f.a = 0) && decide (f.b = 0) && decide (f.c = 0)
     else decide (f.a = 0) && decide (f.b = 0) && srcS f.c)
/-- SEV (R261). -/
def wfSev (h : Head) (f : SReg) : Bool :=
  acZero h && decide (f.d = 0) && decide (f.b = 0) && decide (f.c = 0) && decide (f.f = 0) && decide (f.x.toNat < 3) &&
    (if f.x = 0 then srcS f.a else decide (f.a = 0))
/-- AMOV and AADD (R290). -/
def wfAmov (h : Head) (f : AGen) : Bool := acZero h && srcS f.a && decide (f.dim = 0) && decide (f.imm = 0)
/-- AADDI (R290). -/
def wfAaddi (h : Head) (f : AGen) : Bool := acZero h && decide (f.a = 0) && decide (f.dim = 0)
/-- ACFG (R290). -/
def wfAcfg (h : Head) (f : AGen) : Bool := acZero h && srcS f.a && decide (f.ab = 0) && decide (f.imm.toNat < 2 ^ 16)
/-- AIND (R290). -/
def wfAind (h : Head) (f : AGen) : Bool :=
  acZero h && srcS f.a && decide (f.ab ≠ 0) && decide (f.imm.toNat < 2 ^ 20) && decide (f.imm.toNat % 512 = 0)
/-- ARUN; K = 63 with an indirect dimension is found by the machine (R290). -/
def wfArun (h : Head) (f : AGen) : Bool :=
  acZero h && decide (1 ≤ f.a.toNat) && decide (f.a.toNat ≤ 63) && decide (f.dim = 0) && decide (f.imm.toNat < 64)
/-- ASTOP (R290). -/
def wfAstop (h : Head) (f : AGen) : Bool :=
  acZero h && decide (f.a = 0) && decide (f.dim = 0) && decide (f.imm = 0) && decide (f.ab = 0)
/-- Two vector sources, masking allowed, with given types; RTZ only where `rtz` allows it on a floating type. -/
def wfV2 (tyOk rtz : BitVec 4 → Bool) (h : Head) (f : VecF) : Bool :=
  acZero h && dstV f && srcV f.s1 && srcV f.s2 && maskOk f && tyOk f.ty && !f.md.getLsbD 1 && !f.md.getLsbD 2 &&
    (!f.md.getLsbD 0 || rtz f.ty)
/-- One vector source, masking allowed. -/
def wfV1 (tyOk : BitVec 4 → Bool) (h : Head) (f : VecF) : Bool :=
  acZero h && dstV f && srcV f.s1 && decide (f.s2 = 0) && maskOk f && tyOk f.ty && decide (f.md.toNat % 8 = 0)
/-- No type. -/
def noTy (_ : BitVec 4) : Bool := false
/-- VFMA: three sources, no mask (R297). -/
def wfVfma (h : Head) (f : VecF) : Bool :=
  acZero h && dstV f && srcV f.s1 && srcV f.s2 && srcV f.s3 && isPlain f.ty && decide (f.md.toNat < 2) &&
    (decide (f.md = 0) || isFloat f.ty)
/-- The reductions: a group count in S2 (R299). -/
def wfVred (tyOk rtz : BitVec 4 → Bool) (h : Head) (f : VecF) : Bool :=
  acZero h && dstV f && srcV f.s1 && decide (f.s2.toNat < 8) && decide (2 ^ f.s2.toNat ≤ lanes f.ty / 2) && maskOk f &&
    tyOk f.ty && !f.md.getLsbD 1 && !f.md.getLsbD 2 && (!f.md.getLsbD 0 || rtz f.ty)
/-- VCMP (R300). -/
def wfVcmp (h : Head) (f : VecF) : Bool :=
  acZero h && decide (f.nwb = 0) && predInV f.dst && srcV f.s1 && srcV f.s2 && maskOk f && isPlain f.ty &&
    (isFloat f.ty || decide (f.md.toNat % 8 < 6))
/-- VQAND and VQOR (R300). -/
def wfVq2 (h : Head) (f : VecF) : Bool :=
  acZero h && decide (f.nwb = 0) && predInV f.dst && predInV f.s1 && predInV f.s2 && decide (f.s3 = 0) &&
    decide (f.ty = 0) && decide (f.md = 0)
/-- VQNOT (R300). -/
def wfVqnot (h : Head) (f : VecF) : Bool := wfVq2 h f && decide (f.s2 = 0)
/-- VSEL (R301). -/
def wfVsel (h : Head) (f : VecF) : Bool :=
  acZero h && dstV f && srcV f.s1 && srcV f.s2 && predInV f.s3 && isPlain f.ty && decide (f.md = 0)
/-- VPERM: S3 only where a register has 2,048 lanes (R301). -/
def wfVperm (h : Head) (f : VecF) : Bool :=
  acZero h && dstV f && srcV f.s1 && srcV f.s2 && isPlain f.ty && decide (f.md = 0) &&
    (if elemSize f.ty = 1 then srcV f.s3 else decide (f.s3 = 0))
/-- VBCAST from a scalar (R301). -/
def wfVbcast (h : Head) (f : VecF) : Bool :=
  acZero h && dstV f && decide (f.s1 = 0) && scaInV f.s2 && maskOk f && isPlain f.ty && decide (f.md.toNat % 8 = 0)
/-- VBCAST from a lane (R301). -/
def wfVbcastLn (h : Head) (f : VecF) : Bool :=
  acZero h && dstV f && srcV f.s1 && scaInV f.s2 && maskOk f && isPlain f.ty && decide (f.md.toNat % 8 = 1)
/-- VINS (R301). -/
def wfVins (h : Head) (f : VecF) : Bool :=
  acZero h && dstV f && srcV f.s1 && scaInV f.s2 && scaInV f.s3 && isPlain f.ty && decide (f.md = 0)
/-- VEXT (R301). -/
def wfVext (h : Head) (f : VecF) : Bool :=
  acZero h && dstV f && srcV f.s1 && srcV f.s2 && scaInV f.s3 && isPlain f.ty && decide (f.md = 0)
/-- Is a pair of plain types a conversion of R203? A floating format to itself is not. -/
def convPair (src dst : BitVec 4) : Bool :=
  isPlain src && isPlain dst && (isInt src || isInt dst || decide (src ≠ dst))
/-- VCVT (R302). -/
def wfVcvt (h : Head) (f : VecF) : Bool :=
  let src := f.s2.setWidth 4
  let ns := lanes src
  let nd := lanes f.ty
  acZero h && dstV f && srcV f.s1 && convPair src f.ty && decide (f.s2.toNat < 256) && decide (f.md.toNat % 8 = 0) &&
    maskOk f && decide (f.s2.toNat / 32 < max ns nd / min ns nd)
/-- The destination types of VPACK (R303). -/
def packTy (ty : BitVec 4) : Bool :=
  decide (ty.toNat < 3) || (decide (4 ≤ ty.toNat) && decide (ty.toNat < 7)) || decide (ty = 8) || decide (ty = 9)
/-- VPACK (R303). -/
def wfVpack (h : Head) (f : VecF) : Bool :=
  acZero h && dstV f && srcV f.s1 && srcV f.s2 && maskOk f && packTy f.ty && (isFloat f.ty || !f.md.getLsbD 0) &&
    !f.md.getLsbD 1 && !f.md.getLsbD 2
/-- VUNPK (R303). -/
def wfVunpk (h : Head) (f : VecF) : Bool :=
  acZero h && dstV f && srcV f.s1 && decide (f.s2.toNat < 2) && decide (f.s3 = 0) &&
    (if f.ty = 10 then decide (f.md = 2) || decide (f.md = 4)
     else isInt f.ty && decide (elemSize f.ty ≠ 1) && decide (f.md = 0))
/-- VZPS (R304). -/
def wfVzps (h : Head) (f : VecF) : Bool :=
  let ns := if f.md.getLsbD 3 then 2048 else 4096
  acZero h && dstV f && srcV f.s1 && srcV f.s2 && decide (f.s3 = 0) && (decide (f.ty.toNat < 3) || isFloat f.ty) &&
    decide (f.md.toNat % 8 < ns / min ns (lanes f.ty))
/-- VPLX (R305). -/
def wfVplx (h : Head) (f : VecF) : Bool :=
  let code := f.s3.toNat % 16
  let width := f.s3.toNat / 16 % 8
  acZero h && dstV f && srcV f.s1 && srcV f.s2 && decide (f.s3.toNat < 256) && (decide (f.ty = 0) || isFloat f.ty) &&
    ((decide (code = 13) && decide (width < 7)) ||
      (decide (code = 14) && (decide (width = 0) || decide (width = 2) || decide (width = 6))))
/-- VPLI (R306). -/
def wfVpli (h : Head) (f : VecF) : Bool :=
  acZero h && dstV f && srcV f.s1 && decide (f.s2 = 0) && decide (f.s3 = 0) &&
    ((decide (f.ty = 13) && decide (f.md.toNat < 7)) || (decide (f.ty = 14) && decide (f.md = 6)))
/-- VEXP2 and VRCP (R307). -/
def wfVexp (h : Head) (f : VecF) : Bool :=
  acZero h && dstV f && srcV f.s1 && decide (f.s2 = 0) && decide (f.s3 = 0) && isFloat f.ty && decide (f.md.toNat < 2)
/-- VMRG (R308). -/
def wfVmrg (h : Head) (f : VecF) : Bool :=
  acZero h && dstV f && srcV f.s1 && srcV f.s2 && decide (f.s3 = 0) && decide (f.ty = 10) && decide (f.md.toNat ≤ 4)
/-- GIDX (R309). -/
def wfGidx (h : Head) (f : VecF) : Bool :=
  acZero h && srcV f.s1 && decide (f.s2.toNat < 32) && decide (f.dst = 0) && decide (f.nwb = 0) && decide (f.s3 = 0) &&
    (((decide (f.ty = 0) || decide (f.ty = 11) || decide (f.ty = 12)) && decide (f.md = 0)) ||
      (decide (f.ty = 13) && (decide (f.md = 2) || decide (f.md = 6))))
/-- GATH (R310). -/
def wfGath (h : Head) (f : VecF) : Bool :=
  acZero h && dstV f && decide (f.s1 = 0) && decide (f.s2 = 0) && decide (f.s3 = 0) && decide (f.ty = 0) &&
    decide (f.md = 0)
/-- MCFG (R312). -/
def wfMcfg (h : Head) (f : MatF) : Bool :=
  acZero h && srcV f.s1 && decide (f.s2 = 0) && decide (f.aux = 0) && decide (f.ty = 0) && decide (f.md = 0)
/-- MZERO (R317). -/
def wfMzero (h : Head) (f : MatF) : Bool :=
  acZero h && decide (f.s1 = 0) && decide (f.s2 = 0) && decide (f.aux = 0) && decide (f.ty = 0) && decide (f.md = 0)
/-- MPUSH (R314). -/
def wfMpush (h : Head) (f : MatF) : Bool :=
  acZero h && srcV f.s1 && decide (f.s2 = 0) && decide (f.aux.toNat < 8) && decide (f.ty = 0) && decide (f.md = 0)
/-- MSHF (R315). -/
def wfMshf (h : Head) (f : MatF) : Bool := wfMzero h f && decide (f.z = 0)
/-- MACC and MACCH (R315). -/
def wfMacc (h : Head) (f : MatF) : Bool :=
  acZero h && decide (f.z = 0) && decide (f.s1 = 0) && decide (f.s2 = 0) && decide (f.aux.toNat < 4) &&
    decide (f.ty = 0) && decide (f.md = 0)
/-- MDRN (R316). -/
def wfMdrn (h : Head) (f : MatF) : Bool :=
  acZero h && decide (f.s1.toNat < 640) && (if f.md.getLsbD 1 then srcV f.s2 else decide (f.s2 = 0)) &&
    decide (f.aux.toNat < 32) && isPlain f.ty && decide (f.aux.toNat % (8 / elemSize f.ty) = 0) && !f.md.getLsbD 2
/-- PI of a plain or acquire form (R265). -/
def memPi (f : MemF) : Bool := decide (f.ord.toNat < 2) && f.scope.getLsbD 2
/-- RC of a plain or acquire form (R265). -/
def memRc (f : MemF) : Nat := if f.ord.toNat < 2 then f.scope.toNat % 4 else 0
/-- H is zero outside MTW (R230); X is a source, and with PI a register (R265). -/
def memCommon (mtw : Bool) (f : MemF) : Bool :=
  (mtw || decide (f.h = 0)) && (if memPi f then dstS f.x else srcS f.x)
/-- ORD is plain or `o`; a release names a scope of 0 to 4 (R267, R271). -/
def ordOk (o : Nat) (f : MemF) : Bool :=
  (decide (f.ord.toNat = 0) || decide (f.ord.toNat = o)) && (decide (f.ord.toNat < 2) || decide (f.scope.toNat < 5))
/-- Scalar loads (R267). -/
def wfLd (mtw : Bool) (f : MemF) : Bool :=
  memCommon mtw f && ordOk 1 f && decide (memRc f = 0) && !f.data.getLsbD 7 && decide (f.data.toNat % 128 < 64)
/-- Scalar stores (R267). -/
def wfSt (mtw : Bool) (f : MemF) : Bool :=
  memCommon mtw f && ordOk 2 f && decide (memRc f = 0) && !f.data.getLsbD 7 && decide (f.data.toNat % 128 < 80)
/-- Vector and tile loads (R267). -/
def wfVld (mtw : Bool) (f : MemF) : Bool :=
  memCommon mtw f && ordOk 1 f && decide (f.data.toNat + 2 ^ memRc f - 1 < 640)
/-- Vector and tile stores: a latch only for one register (R265, R267). -/
def wfVst (mtw : Bool) (f : MemF) : Bool :=
  memCommon mtw f && ordOk 2 f &&
    (decide (f.data.toNat + 2 ^ memRc f - 1 < 640) || (decide (1008 ≤ f.data.toNat) && decide (memRc f = 0)))
/-- The ordering and size fields of an atomic (R272). -/
def atomCommon (mtw : Bool) (f : MemF) : Bool :=
  memCommon mtw f && (if f.ord.toNat < 2 then decide (f.scope = 0) else decide (f.scope.toNat < 5)) &&
    decide (2 ≤ f.data.toNat / 256) && !f.data.getLsbD 7
/-- AMO (R272). -/
def wfAmo (mtw : Bool) (f : MemF) : Bool :=
  atomCommon mtw f && decide (f.data.toNat % 128 < 64) && decide (f.imm.toNat / 2 ^ 13 ≤ 8)
/-- CAS (R273). -/
def wfCas (mtw : Bool) (f : MemF) : Bool :=
  atomCommon mtw f && decide (1 ≤ f.data.toNat % 128) && decide (f.data.toNat % 128 ≤ 62)
/-- MARK (R275). -/
def wfMark (h : Head) (f : MemF) : Bool :=
  acZero h && decide (f.data = 0) && decide (f.b = 0) && decide (f.h = 0) && decide (f.x = 0) && decide (f.ord = 0) &&
    decide (f.scope = 0) && decide (f.imm = 0)
/-- BLD (R277). -/
def wfBld (f : MemF) : Bool :=
  srcS f.x && decide (f.data = 0) && decide (f.h = 0) && decide (f.ord = 0) && decide (f.scope = 0)
/-- XLATE (R278). -/
def wfXlate (f : MemF) : Bool :=
  srcS f.x && decide (f.data = 0) && decide (f.b = 0) && decide (f.ord = 0) && decide (f.scope = 0) && decide (f.imm = 0)
/-- CPY and PXFER: D only with X[0] (R281, R288). -/
def wfCpy (h : Head) (f : CmdF) : Bool :=
  acZero h && dstS f.tok && srcS f.a && srcS f.b && srcS f.c && decide (f.x.toNat < 2) &&
    (if f.x = 1 then srcS f.d else decide (f.d = 0))
/-- CPYT (R281). -/
def wfCpyt (h : Head) (f : CmdF) : Bool :=
  acZero h && dstS f.tok && srcS f.a && srcS f.b && srcS f.c && srcS f.d && decide (f.x = 0)
/-- WAITC (R285). -/
def wfWaitc (h : Head) (f : CmdF) : Bool :=
  acZero h && dstS f.tok && srcS f.a && decide (f.b = 0) && decide (f.c = 0) && decide (f.d = 0) && decide (f.x = 0)
/-- A command with the first `n` of its operands A to D (R329). -/
def wfCmd (n : Nat) (h : Head) (f : CmdF) : Bool :=
  acZero h && dstS f.tok && srcS f.a && (if 2 ≤ n then srcS f.b else decide (f.b = 0)) &&
    (if 3 ≤ n then srcS f.c else decide (f.c = 0)) && (if 4 ≤ n then srcS f.d else decide (f.d = 0))
/-- SPAWN (R341). -/
def wfSpawn (h : Head) (f : SysF) : Bool :=
  acZero h && dstS f.d && srcS f.a && srcS f.b && decide (f.imm.toNat < 2 ^ 16) &&
    (!f.imm.getLsbD 15 || decide (f.imm.toNat / 2 ^ 12 = 8))
/-- GBAR (R342). -/
def wfGbar (h : Head) (f : SysF) : Bool :=
  acZero h && decide (f.d = 0) && decide (f.a = 0) && decide (f.b = 0) && decide (f.imm.toNat % 256 < 5) &&
    decide (f.imm.toNat < 2 ^ 16)
/-- WATCH (R343). -/
def wfWatch (h : Head) (f : SysF) : Bool :=
  acZero h && dstS f.d && srcS f.b && decide (f.imm.toNat < 2) && (if f.imm = 1 then decide (f.a = 0) else srcS f.a)
/-- A SYSF instruction with D, A or B as listed and an immediate below a bound. -/
def wfSys (d a b : Bool) (lim : Nat) (h : Head) (f : SysF) : Bool :=
  acZero h && (if d then dstS f.d else decide (f.d = 0)) && (if a then srcS f.a else decide (f.a = 0)) &&
    (if b then srcS f.b else decide (f.b = 0)) && decide (f.imm.toNat < lim)
/-- FENCE (R276). -/
def wfFence (h : Head) (f : SysF) : Bool :=
  wfSys false false false 20 h f && decide (f.imm.toNat % 4 ≠ 0)
/-- WAITT by a tick key (R345). -/
def wfWaittTick (h : Head) (f : SysF) : Bool := wfSys false true true 2 h f && decide (f.imm = 1)
/-- ICINV (R349). -/
def wfIcinv (h : Head) (f : SysF) : Bool :=
  wfSys false true true 16 h f && decide (f.imm.toNat % 4 ≠ 3) && decide (f.imm.toNat / 4 ≠ 1)

/-- The static operand check of an instruction: every syllable by its own limits; a step of a device or of the outside has no
words and is well-formed. -/
def Instr.wf : Instr → Bool
  | .nop _ => true
  | .bundleIssue _ => true
  | .budgetTrap _ _ => true
  | .add _ h f => wfAddSub h f
  | .sub _ h f => wfAddSub h f
  | .addi _ h f => wfImm h f
  | .mul _ h f => wfDAB h f
  | .mulh _ h f => wfDAB h f
  | .mulhu _ h f => wfDAB h f
  | .div h f => wfDAB h f
  | .divu h f => wfDAB h f
  | .rem h f => wfDAB h f
  | .remu h f => wfDAB h f
  | .addpc _ h f => wfAddpc h f
  | .and _ h f => wfDAB h f
  | .or _ h f => wfDAB h f
  | .xor _ h f => wfDAB h f
  | .andn _ h f => wfDAB h f
  | .andi _ h f => wfImm h f
  | .ori _ h f => wfImm h f
  | .xori _ h f => wfImm h f
  | .shl _ h f => wfDAB h f
  | .shr _ h f => wfDAB h f
  | .sar _ h f => wfDAB h f
  | .shli _ h f => wfShImm h f
  | .shri _ h f => wfShImm h f
  | .sari _ h f => wfShImm h f
  | .fshl _ h f => wfFunnel h f
  | .fshr _ h f => wfFunnel h f
  | .cmp _ h f => wfCmp h f
  | .cmpi _ h f => wfCmpi h f
  | .sel _ h f => wfSel h f
  | .min _ h f => wfDAB h f
  | .max _ h f => wfDAB h f
  | .minu _ h f => wfDAB h f
  | .maxu _ h f => wfDAB h f
  | .bfx _ h f => wfBfx h f
  | .bfxu _ h f => wfBfx h f
  | .bfi _ h f => wfBfi h f
  | .clz _ h f => wfDA h f
  | .ctz _ h f => wfDA h f
  | .popc _ h f => wfDA h f
  | .brev _ h f => wfDA h f
  | .bswap _ h f => wfDA h f
  | .li _ h f => wfLi h f
  | .lih _ h f => wfLih h f
  | .phash h f => wfPhash h f
  | .pbr h f => wfPbr h f
  | .pbrr h f => wfPbrr h f
  | .xfer h f => wfXfer h f
  | .xferl h f => wfXferl h f
  | .loop h f => wfLoop h f
  | .loopi h f => wfLoopi h f
  | .breakLoop h f => wfBreak h f
  | .vany h f => wfVote h f
  | .vall h f => wfVote h f
  | .fop h f => wfFop h f
  | .wfe h f => wfNone h f
  | .sev h f => wfSev h f
  | .tend h f => wfNone h f
  | .amov h f => wfAmov h f
  | .aadd h f => wfAmov h f
  | .aaddi h f => wfAaddi h f
  | .acfg h f => wfAcfg h f
  | .aind h f => wfAind h f
  | .arun h f => wfArun h f
  | .astop h f => wfAstop h f
  | .generatorStep _ => true
  | .vadd h f => wfV2 isPlain isFloat h f
  | .vsub h f => wfV2 isPlain isFloat h f
  | .vmul h f => wfV2 isPlain isFloat h f
  | .vfma h f => wfVfma h f
  | .vmin h f => wfV2 isPlain noTy h f
  | .vmax h f => wfV2 isPlain noTy h f
  | .vabs h f => wfV1 isPlain h f
  | .vneg h f => wfV1 isPlain h f
  | .vadds h f => wfV2 isInt noTy h f
  | .vsubs h f => wfV2 isInt noTy h f
  | .vmulh h f => wfV2 isInt noTy h f
  | .vand h f => wfV2 isInt noTy h f
  | .vor h f => wfV2 isInt noTy h f
  | .vxor h f => wfV2 isInt noTy h f
  | .vandn h f => wfV2 isInt noTy h f
  | .vshl h f => wfV2 isInt noTy h f
  | .vshr h f => wfV2 isInt noTy h f
  | .vsar h f => wfV2 isInt noTy h f
  | .vpopc h f => wfV1 isInt h f
  | .vcvt h f => wfVcvt h f
  | .vpack h f => wfVpack h f
  | .vunpk h f => wfVunpk h f
  | .vrsum h f => wfVred isPlain isFloat h f
  | .vrmax h f => wfVred isPlain noTy h f
  | .vrmin h f => wfVred isPlain noTy h f
  | .vrand h f => wfVred isInt noTy h f
  | .vror h f => wfVred isInt noTy h f
  | .vcmp h f => wfVcmp h f
  | .vqand h f => wfVq2 h f
  | .vqor h f => wfVq2 h f
  | .vqnot h f => wfVqnot h f
  | .vsel h f => wfVsel h f
  | .vperm h f => wfVperm h f
  | .vbcast h f => wfVbcast h f
  | .vbcastLn h f => wfVbcastLn h f
  | .vmov h f => wfV1 isPlain h f
  | .vins h f => wfVins h f
  | .vext h f => wfVext h f
  | .vzps h f => wfVzps h f
  | .vplx h f => wfVplx h f
  | .vpli h f => wfVpli h f
  | .vexp2 h f => wfVexp h f
  | .vrcp h f => wfVexp h f
  | .vmrg h f => wfVmrg h f
  | .gidx h f => wfGidx h f
  | .gath h f => wfGath h f
  | .mcfg h f => wfMcfg h f
  | .busEpochStart _ _ _ => true
  | .mzero h f => wfMzero h f
  | .mpush h f => wfMpush h f
  | .mshf h f => wfMshf h f
  | .macc h f => wfMacc h f
  | .macch h f => wfMacc h f
  | .mdrn h f => wfMdrn h f
  | .grantWindow _ _ _ => true
  | .ld _ f => wfLd false f
  | .ldz _ f => wfLd false f
  | .st _ f => wfSt false f
  | .vld _ f => wfVld false f
  | .vst _ f => wfVst false f
  | .tld _ f => wfVld false f
  | .tst _ f => wfVst false f
  | .amo _ f => wfAmo false f
  | .cas _ f => wfCas false f
  | .mark h f => wfMark h f
  | .gld _ f => wfLd false f
  | .gldz _ f => wfLd false f
  | .gst _ f => wfSt false f
  | .gvld _ f => wfVld false f
  | .gvst _ f => wfVst false f
  | .gtld _ f => wfVld false f
  | .gtst _ f => wfVst false f
  | .gamo _ f => wfAmo false f
  | .gcas _ f => wfCas false f
  | .gmark h f => wfMark h f
  | .wld _ f => wfLd true f
  | .wldz _ f => wfLd true f
  | .wst _ f => wfSt true f
  | .wvld _ f => wfVld true f
  | .wvst _ f => wfVst true f
  | .wtld _ f => wfVld true f
  | .wtst _ f => wfVst true f
  | .wamo _ f => wfAmo true f
  | .wcas _ f => wfCas true f
  | .wmark h f => wfMark h f
  | .bld _ f => wfBld f
  | .xlate _ f => wfXlate f
  | .fence h f => wfFence h f
  | .cpy h f => wfCpy h f
  | .cpyt h f => wfCpyt h f
  | .copyIssue _ => true
  | .chunkLand _ _ _ => true
  | .waitc h f => wfWaitc h f
  | .pxfer h f => wfCpy h f
  | .peerChunkReceive _ _ _ _ => true
  | .sqopen h f => wfCmd 1 h f
  | .sqclose h f => wfCmd 1 h f
  | .sqnode h f => wfCmd 3 h f
  | .sqchk h f => wfCmd 3 h f
  | .sqacc h f => wfCmd 4 h f
  | .sqaccAssistComplete h f => wfCmd 4 h f
  | .sqsave h f => wfCmd 2 h f
  | .sqrst h f => wfCmd 1 h f
  | .kvgrow h f => wfCmd 3 h f
  | .kvcommit h f => wfCmd 2 h f
  | .kvroll h f => wfCmd 2 h f
  | .kvexport h f => wfCmd 3 h f
  | .kvpoolEnable h f => wfCmd 4 h f
  | .kvpoolDisable h f => wfCmd 4 h f
  | .kvpoolPin h f => wfCmd 4 h f
  | .kvpoolUnpin h f => wfCmd 4 h f
  | .kvpoolSetent h f => wfCmd 4 h f
  | .kvpoolAlloc h f => wfCmd 4 h f
  | .kvpoolFree h f => wfCmd 4 h f
  | .pfxlook h f => wfCmd 3 h f
  | .pfxins h f => wfCmd 3 h f
  | .pfxinsAssistComplete h f => wfCmd 3 h f
  | .pfxpin h f => wfCmd 2 h f
  | .stcfgConfigure h f => wfCmd 3 h f
  | .stcfgDisable h f => wfCmd 3 h f
  | .stcfgEvict h f => wfCmd 3 h f
  | .stcfgRestore h f => wfCmd 3 h f
  | .spawn h f => wfSpawn h f
  | .gbar h f => wfGbar h f
  | .watch h f => wfWatch h f
  | .unwatch h f => wfSys true true false 1 h f
  | .ttrel h f => wfSys true true true 1 h f
  | .rdtime h f => wfSys true false false 4 h f
  | .waittCyc h f => wfSys false true false 1 h f
  | .waittTick h f => wfWaittTick h f
  | .budset h f => wfSys true true false 1 h f
  | .vopen h f => wfSys true true false 1 h f
  | .vseal h f => wfSys false true false 1 h f
  | .vsealPerform _ => true
  | .vhold h f => wfSys true true true 1 h f
  | .vrel h f => wfSys false true true 1 h f
  | .mfsr h f => wfSys true false false 4096 h f
  | .mtsr h f => wfSys false true false 4096 h f
  | .svc h f => wfSys true true false 65536 h f
  | .eret h f => wfSys false false false 1 h f
  | .trap h f => wfSys false true false 65536 h f
  | .csld h f => wfSys true true false 1 h f
  | .icinv h f => wfIcinv h f
  | .halt h f => wfSys false false false 1 h f
  | .mmt h f => wfSys true true false 2048 h f
  | .matt h f => wfSys true true true 2048 h f
  | .macroBegin _ _ => true
  | .taskLaunch _ _ _ => true
  | .pop _ _ _ _ _ => true
  | .gangBackoffExpiry _ _ => true
  | .drainClaimCommit _ _ => true
  | .preemption _ _ => true
  | .frameStart => true
  | .releaseTick _ => true
  | .streamCheckPoint _ _ => true
  | .streamTick _ _ => true
  | .watchTrigger _ => true
  | .ethFrameReceive _ _ _ => true
  | .ptpMessage _ _ _ _ _ => true
  | .streamEviction _ _ => true
  | .streamRestore _ _ => true
  | .pageInSwitch _ => true
  | .evictionRetry _ => true
  | .evictionSwitch _ => true
  | .backgroundZeroing _ => true
  | .spireErrorThreshold _ _ _ => true
  | .spireLaneFail _ _ => true
  | .sprqDecide _ _ => true
  | .sprqSpare _ _ => true
  | .sprqReroute _ _ => true
  | .spireRetirement _ _ => true
  | .bufferMigration _ _ => true
  | .sensorSample _ _ _ => true
  | .thermalStepTimer _ => true
  | .thermalReleaseTimer _ => true
  | .powerThrottleAdjust _ _ => true
  | .softErrorAtRest _ _ => true
  | .supervisorTrapEntry _ => true
  | .heldTrapRetry _ => true
  | .cfsynResume _ _ => true
  | .cfsynSuspend _ _ => true
  | .tfgoFill _ _ => true
  | .tfgoFail _ _ => true
  | .tkillTask _ _ => true
  | .tkillContextTower _ _ => true
  | .tkillContextPackage _ _ => true
  | .sevw _ _ => true
  | .svcr _ _ => true
  | .otw _ _ => true
  | .otwBusyClear _ => true
  | .xinvPage _ _ => true
  | .xinvContext _ _ => true
  | .xinvAll _ _ => true
  | .xinvDone => true
  | .vbdEnable _ _ _ _ => true
  | .vbdDisable _ _ _ _ => true
  | .cfmWrite _ _ _ => true
  | .budWrite _ _ _ => true
  | .frmcfgWrite _ => true
  | .tofsWrite _ => true
  | .hcwWrite _ _ => true
  | .registerWrite _ _ _ => true
  | .hostPostedWrite _ _ _ => true
  | .hostRead _ _ _ => true
  | .hostAtomicRequest _ _ => true
  | .platctlWrite _ => true
  | .resumeWrite _ => true
  | .controlWindowWrite _ _ => true
  | .linkTraining _ _ _ => true
  | .packageReset => true
  | .pcieLinkTrain => true
  | .aknelVerify _ _ => true
  | .dramSpireTraining _ _ => true
  | .malaskunStart _ _ => true
  | .attestationRequest _ => true
  | .accessPerformedAtHome _ _ _ => true
  | .ptpMasterLost => true

/-- The slot number of a scalar port (R220). -/
def Port.slot : Port → Nat
  | .sca => 1
  | .scb => 2

/-- The slot an instruction's syllable stands in (R220, R228 to R231); none for a step that is no syllable. -/
def Instr.slot : Instr → Option Nat
  | .nop _ => none
  | .bundleIssue _ => none
  | .budgetTrap _ _ => none
  | .add p _ _ => some p.slot
  | .sub p _ _ => some p.slot
  | .addi p _ _ => some p.slot
  | .mul p _ _ => some p.slot
  | .mulh p _ _ => some p.slot
  | .mulhu p _ _ => some p.slot
  | .div _ _ => some 1
  | .divu _ _ => some 1
  | .rem _ _ => some 1
  | .remu _ _ => some 1
  | .addpc p _ _ => some p.slot
  | .and p _ _ => some p.slot
  | .or p _ _ => some p.slot
  | .xor p _ _ => some p.slot
  | .andn p _ _ => some p.slot
  | .andi p _ _ => some p.slot
  | .ori p _ _ => some p.slot
  | .xori p _ _ => some p.slot
  | .shl p _ _ => some p.slot
  | .shr p _ _ => some p.slot
  | .sar p _ _ => some p.slot
  | .shli p _ _ => some p.slot
  | .shri p _ _ => some p.slot
  | .sari p _ _ => some p.slot
  | .fshl p _ _ => some p.slot
  | .fshr p _ _ => some p.slot
  | .cmp p _ _ => some p.slot
  | .cmpi p _ _ => some p.slot
  | .sel p _ _ => some p.slot
  | .min p _ _ => some p.slot
  | .max p _ _ => some p.slot
  | .minu p _ _ => some p.slot
  | .maxu p _ _ => some p.slot
  | .bfx p _ _ => some p.slot
  | .bfxu p _ _ => some p.slot
  | .bfi p _ _ => some p.slot
  | .clz p _ _ => some p.slot
  | .ctz p _ _ => some p.slot
  | .popc p _ _ => some p.slot
  | .brev p _ _ => some p.slot
  | .bswap p _ _ => some p.slot
  | .li p _ _ => some p.slot
  | .lih p _ _ => some p.slot
  | .phash _ _ => some 1
  | .pbr _ _ => some 0
  | .pbrr _ _ => some 0
  | .xfer _ _ => some 0
  | .xferl _ _ => some 0
  | .loop _ _ => some 0
  | .loopi _ _ => some 0
  | .breakLoop _ _ => some 0
  | .vany _ _ => some 0
  | .vall _ _ => some 0
  | .fop _ _ => some 0
  | .wfe _ _ => some 0
  | .sev _ _ => some 0
  | .tend _ _ => some 0
  | .amov _ _ => some 3
  | .aadd _ _ => some 3
  | .aaddi _ _ => some 3
  | .acfg _ _ => some 3
  | .aind _ _ => some 3
  | .arun _ _ => some 3
  | .astop _ _ => some 3
  | .generatorStep _ => none
  | .vadd _ _ => some 4
  | .vsub _ _ => some 4
  | .vmul _ _ => some 4
  | .vfma _ _ => some 4
  | .vmin _ _ => some 4
  | .vmax _ _ => some 4
  | .vabs _ _ => some 4
  | .vneg _ _ => some 4
  | .vadds _ _ => some 4
  | .vsubs _ _ => some 4
  | .vmulh _ _ => some 4
  | .vand _ _ => some 4
  | .vor _ _ => some 4
  | .vxor _ _ => some 4
  | .vandn _ _ => some 4
  | .vshl _ _ => some 4
  | .vshr _ _ => some 4
  | .vsar _ _ => some 4
  | .vpopc _ _ => some 4
  | .vcvt _ _ => some 4
  | .vpack _ _ => some 4
  | .vunpk _ _ => some 4
  | .vrsum _ _ => some 4
  | .vrmax _ _ => some 4
  | .vrmin _ _ => some 4
  | .vrand _ _ => some 4
  | .vror _ _ => some 4
  | .vcmp _ _ => some 4
  | .vqand _ _ => some 4
  | .vqor _ _ => some 4
  | .vqnot _ _ => some 4
  | .vsel _ _ => some 4
  | .vperm _ _ => some 4
  | .vbcast _ _ => some 4
  | .vbcastLn _ _ => some 4
  | .vmov _ _ => some 4
  | .vins _ _ => some 4
  | .vext _ _ => some 4
  | .vzps _ _ => some 4
  | .vplx _ _ => some 4
  | .vpli _ _ => some 4
  | .vexp2 _ _ => some 4
  | .vrcp _ _ => some 4
  | .vmrg _ _ => some 4
  | .gidx _ _ => some 5
  | .gath _ _ => some 5
  | .mcfg _ _ => some 6
  | .busEpochStart _ _ _ => none
  | .mzero _ _ => some 6
  | .mpush _ _ => some 6
  | .mshf _ _ => some 6
  | .macc _ _ => some 6
  | .macch _ _ => some 6
  | .mdrn _ _ => some 6
  | .grantWindow _ _ _ => none
  | .ld _ _ => some 7
  | .ldz _ _ => some 7
  | .st _ _ => some 7
  | .vld _ _ => some 7
  | .vst _ _ => some 7
  | .tld _ _ => some 7
  | .tst _ _ => some 7
  | .amo _ _ => some 7
  | .cas _ _ => some 7
  | .mark _ _ => some 7
  | .gld _ _ => some 8
  | .gldz _ _ => some 8
  | .gst _ _ => some 8
  | .gvld _ _ => some 8
  | .gvst _ _ => some 8
  | .gtld _ _ => some 8
  | .gtst _ _ => some 8
  | .gamo _ _ => some 8
  | .gcas _ _ => some 8
  | .gmark _ _ => some 8
  | .wld _ _ => some 9
  | .wldz _ _ => some 9
  | .wst _ _ => some 9
  | .wvld _ _ => some 9
  | .wvst _ _ => some 9
  | .wtld _ _ => some 9
  | .wtst _ _ => some 9
  | .wamo _ _ => some 9
  | .wcas _ _ => some 9
  | .wmark _ _ => some 9
  | .bld _ _ => some 9
  | .xlate _ _ => some 9
  | .fence _ _ => some 11
  | .cpy _ _ => some 10
  | .cpyt _ _ => some 10
  | .copyIssue _ => none
  | .chunkLand _ _ _ => none
  | .waitc _ _ => some 10
  | .pxfer _ _ => some 10
  | .peerChunkReceive _ _ _ _ => none
  | .sqopen _ _ => some 10
  | .sqclose _ _ => some 10
  | .sqnode _ _ => some 10
  | .sqchk _ _ => some 10
  | .sqacc _ _ => some 10
  | .sqaccAssistComplete _ _ => some 10
  | .sqsave _ _ => some 10
  | .sqrst _ _ => some 10
  | .kvgrow _ _ => some 10
  | .kvcommit _ _ => some 10
  | .kvroll _ _ => some 10
  | .kvexport _ _ => some 10
  | .kvpoolEnable _ _ => some 10
  | .kvpoolDisable _ _ => some 10
  | .kvpoolPin _ _ => some 10
  | .kvpoolUnpin _ _ => some 10
  | .kvpoolSetent _ _ => some 10
  | .kvpoolAlloc _ _ => some 10
  | .kvpoolFree _ _ => some 10
  | .pfxlook _ _ => some 10
  | .pfxins _ _ => some 10
  | .pfxinsAssistComplete _ _ => some 10
  | .pfxpin _ _ => some 10
  | .stcfgConfigure _ _ => some 10
  | .stcfgDisable _ _ => some 10
  | .stcfgEvict _ _ => some 10
  | .stcfgRestore _ _ => some 10
  | .spawn _ _ => some 11
  | .gbar _ _ => some 11
  | .watch _ _ => some 11
  | .unwatch _ _ => some 11
  | .ttrel _ _ => some 11
  | .rdtime _ _ => some 11
  | .waittCyc _ _ => some 11
  | .waittTick _ _ => some 11
  | .budset _ _ => some 11
  | .vopen _ _ => some 11
  | .vseal _ _ => some 11
  | .vsealPerform _ => none
  | .vhold _ _ => some 11
  | .vrel _ _ => some 11
  | .mfsr _ _ => some 11
  | .mtsr _ _ => some 11
  | .svc _ _ => some 11
  | .eret _ _ => some 11
  | .trap _ _ => some 11
  | .csld _ _ => some 11
  | .icinv _ _ => some 11
  | .halt _ _ => some 11
  | .mmt _ _ => some 11
  | .matt _ _ => some 11
  | .macroBegin _ _ => none
  | .taskLaunch _ _ _ => none
  | .pop _ _ _ _ _ => none
  | .gangBackoffExpiry _ _ => none
  | .drainClaimCommit _ _ => none
  | .preemption _ _ => none
  | .frameStart => none
  | .releaseTick _ => none
  | .streamCheckPoint _ _ => none
  | .streamTick _ _ => none
  | .watchTrigger _ => none
  | .ethFrameReceive _ _ _ => none
  | .ptpMessage _ _ _ _ _ => none
  | .streamEviction _ _ => none
  | .streamRestore _ _ => none
  | .pageInSwitch _ => none
  | .evictionRetry _ => none
  | .evictionSwitch _ => none
  | .backgroundZeroing _ => none
  | .spireErrorThreshold _ _ _ => none
  | .spireLaneFail _ _ => none
  | .sprqDecide _ _ => none
  | .sprqSpare _ _ => none
  | .sprqReroute _ _ => none
  | .spireRetirement _ _ => none
  | .bufferMigration _ _ => none
  | .sensorSample _ _ _ => none
  | .thermalStepTimer _ => none
  | .thermalReleaseTimer _ => none
  | .powerThrottleAdjust _ _ => none
  | .softErrorAtRest _ _ => none
  | .supervisorTrapEntry _ => none
  | .heldTrapRetry _ => none
  | .cfsynResume _ _ => none
  | .cfsynSuspend _ _ => none
  | .tfgoFill _ _ => none
  | .tfgoFail _ _ => none
  | .tkillTask _ _ => none
  | .tkillContextTower _ _ => none
  | .tkillContextPackage _ _ => none
  | .sevw _ _ => none
  | .svcr _ _ => none
  | .otw _ _ => none
  | .otwBusyClear _ => none
  | .xinvPage _ _ => none
  | .xinvContext _ _ => none
  | .xinvAll _ _ => none
  | .xinvDone => none
  | .vbdEnable _ _ _ _ => none
  | .vbdDisable _ _ _ _ => none
  | .cfmWrite _ _ _ => none
  | .budWrite _ _ _ => none
  | .frmcfgWrite _ => none
  | .tofsWrite _ => none
  | .hcwWrite _ _ => none
  | .registerWrite _ _ _ => none
  | .hostPostedWrite _ _ _ => none
  | .hostRead _ _ _ => none
  | .hostAtomicRequest _ _ => none
  | .platctlWrite _ => none
  | .resumeWrite _ => none
  | .controlWindowWrite _ _ => none
  | .linkTraining _ _ _ => none
  | .packageReset => none
  | .pcieLinkTrain => none
  | .aknelVerify _ _ => none
  | .dramSpireTraining _ _ => none
  | .malaskunStart _ _ => none
  | .attestationRequest _ => none
  | .accessPerformedAtHome _ _ _ => none
  | .ptpMasterLost => none

/-- The predicate head of a syllable; a step that is no syllable has the head that is always true (R222). -/
def Instr.head : Instr → Head
  | .nop _ => ⟨0, 0, 0⟩
  | .bundleIssue _ => ⟨0, 0, 0⟩
  | .budgetTrap _ _ => ⟨0, 0, 0⟩
  | .add _ h _ => h
  | .sub _ h _ => h
  | .addi _ h _ => h
  | .mul _ h _ => h
  | .mulh _ h _ => h
  | .mulhu _ h _ => h
  | .div h _ => h
  | .divu h _ => h
  | .rem h _ => h
  | .remu h _ => h
  | .addpc _ h _ => h
  | .and _ h _ => h
  | .or _ h _ => h
  | .xor _ h _ => h
  | .andn _ h _ => h
  | .andi _ h _ => h
  | .ori _ h _ => h
  | .xori _ h _ => h
  | .shl _ h _ => h
  | .shr _ h _ => h
  | .sar _ h _ => h
  | .shli _ h _ => h
  | .shri _ h _ => h
  | .sari _ h _ => h
  | .fshl _ h _ => h
  | .fshr _ h _ => h
  | .cmp _ h _ => h
  | .cmpi _ h _ => h
  | .sel _ h _ => h
  | .min _ h _ => h
  | .max _ h _ => h
  | .minu _ h _ => h
  | .maxu _ h _ => h
  | .bfx _ h _ => h
  | .bfxu _ h _ => h
  | .bfi _ h _ => h
  | .clz _ h _ => h
  | .ctz _ h _ => h
  | .popc _ h _ => h
  | .brev _ h _ => h
  | .bswap _ h _ => h
  | .li _ h _ => h
  | .lih _ h _ => h
  | .phash h _ => h
  | .pbr h _ => h
  | .pbrr h _ => h
  | .xfer h _ => h
  | .xferl h _ => h
  | .loop h _ => h
  | .loopi h _ => h
  | .breakLoop h _ => h
  | .vany h _ => h
  | .vall h _ => h
  | .fop h _ => h
  | .wfe h _ => h
  | .sev h _ => h
  | .tend h _ => h
  | .amov h _ => h
  | .aadd h _ => h
  | .aaddi h _ => h
  | .acfg h _ => h
  | .aind h _ => h
  | .arun h _ => h
  | .astop h _ => h
  | .generatorStep _ => ⟨0, 0, 0⟩
  | .vadd h _ => h
  | .vsub h _ => h
  | .vmul h _ => h
  | .vfma h _ => h
  | .vmin h _ => h
  | .vmax h _ => h
  | .vabs h _ => h
  | .vneg h _ => h
  | .vadds h _ => h
  | .vsubs h _ => h
  | .vmulh h _ => h
  | .vand h _ => h
  | .vor h _ => h
  | .vxor h _ => h
  | .vandn h _ => h
  | .vshl h _ => h
  | .vshr h _ => h
  | .vsar h _ => h
  | .vpopc h _ => h
  | .vcvt h _ => h
  | .vpack h _ => h
  | .vunpk h _ => h
  | .vrsum h _ => h
  | .vrmax h _ => h
  | .vrmin h _ => h
  | .vrand h _ => h
  | .vror h _ => h
  | .vcmp h _ => h
  | .vqand h _ => h
  | .vqor h _ => h
  | .vqnot h _ => h
  | .vsel h _ => h
  | .vperm h _ => h
  | .vbcast h _ => h
  | .vbcastLn h _ => h
  | .vmov h _ => h
  | .vins h _ => h
  | .vext h _ => h
  | .vzps h _ => h
  | .vplx h _ => h
  | .vpli h _ => h
  | .vexp2 h _ => h
  | .vrcp h _ => h
  | .vmrg h _ => h
  | .gidx h _ => h
  | .gath h _ => h
  | .mcfg h _ => h
  | .busEpochStart _ _ _ => ⟨0, 0, 0⟩
  | .mzero h _ => h
  | .mpush h _ => h
  | .mshf h _ => h
  | .macc h _ => h
  | .macch h _ => h
  | .mdrn h _ => h
  | .grantWindow _ _ _ => ⟨0, 0, 0⟩
  | .ld h _ => h
  | .ldz h _ => h
  | .st h _ => h
  | .vld h _ => h
  | .vst h _ => h
  | .tld h _ => h
  | .tst h _ => h
  | .amo h _ => h
  | .cas h _ => h
  | .mark h _ => h
  | .gld h _ => h
  | .gldz h _ => h
  | .gst h _ => h
  | .gvld h _ => h
  | .gvst h _ => h
  | .gtld h _ => h
  | .gtst h _ => h
  | .gamo h _ => h
  | .gcas h _ => h
  | .gmark h _ => h
  | .wld h _ => h
  | .wldz h _ => h
  | .wst h _ => h
  | .wvld h _ => h
  | .wvst h _ => h
  | .wtld h _ => h
  | .wtst h _ => h
  | .wamo h _ => h
  | .wcas h _ => h
  | .wmark h _ => h
  | .bld h _ => h
  | .xlate h _ => h
  | .fence h _ => h
  | .cpy h _ => h
  | .cpyt h _ => h
  | .copyIssue _ => ⟨0, 0, 0⟩
  | .chunkLand _ _ _ => ⟨0, 0, 0⟩
  | .waitc h _ => h
  | .pxfer h _ => h
  | .peerChunkReceive _ _ _ _ => ⟨0, 0, 0⟩
  | .sqopen h _ => h
  | .sqclose h _ => h
  | .sqnode h _ => h
  | .sqchk h _ => h
  | .sqacc h _ => h
  | .sqaccAssistComplete h _ => h
  | .sqsave h _ => h
  | .sqrst h _ => h
  | .kvgrow h _ => h
  | .kvcommit h _ => h
  | .kvroll h _ => h
  | .kvexport h _ => h
  | .kvpoolEnable h _ => h
  | .kvpoolDisable h _ => h
  | .kvpoolPin h _ => h
  | .kvpoolUnpin h _ => h
  | .kvpoolSetent h _ => h
  | .kvpoolAlloc h _ => h
  | .kvpoolFree h _ => h
  | .pfxlook h _ => h
  | .pfxins h _ => h
  | .pfxinsAssistComplete h _ => h
  | .pfxpin h _ => h
  | .stcfgConfigure h _ => h
  | .stcfgDisable h _ => h
  | .stcfgEvict h _ => h
  | .stcfgRestore h _ => h
  | .spawn h _ => h
  | .gbar h _ => h
  | .watch h _ => h
  | .unwatch h _ => h
  | .ttrel h _ => h
  | .rdtime h _ => h
  | .waittCyc h _ => h
  | .waittTick h _ => h
  | .budset h _ => h
  | .vopen h _ => h
  | .vseal h _ => h
  | .vsealPerform _ => ⟨0, 0, 0⟩
  | .vhold h _ => h
  | .vrel h _ => h
  | .mfsr h _ => h
  | .mtsr h _ => h
  | .svc h _ => h
  | .eret h _ => h
  | .trap h _ => h
  | .csld h _ => h
  | .icinv h _ => h
  | .halt h _ => h
  | .mmt h _ => h
  | .matt h _ => h
  | .macroBegin _ _ => ⟨0, 0, 0⟩
  | .taskLaunch _ _ _ => ⟨0, 0, 0⟩
  | .pop _ _ _ _ _ => ⟨0, 0, 0⟩
  | .gangBackoffExpiry _ _ => ⟨0, 0, 0⟩
  | .drainClaimCommit _ _ => ⟨0, 0, 0⟩
  | .preemption _ _ => ⟨0, 0, 0⟩
  | .frameStart => ⟨0, 0, 0⟩
  | .releaseTick _ => ⟨0, 0, 0⟩
  | .streamCheckPoint _ _ => ⟨0, 0, 0⟩
  | .streamTick _ _ => ⟨0, 0, 0⟩
  | .watchTrigger _ => ⟨0, 0, 0⟩
  | .ethFrameReceive _ _ _ => ⟨0, 0, 0⟩
  | .ptpMessage _ _ _ _ _ => ⟨0, 0, 0⟩
  | .streamEviction _ _ => ⟨0, 0, 0⟩
  | .streamRestore _ _ => ⟨0, 0, 0⟩
  | .pageInSwitch _ => ⟨0, 0, 0⟩
  | .evictionRetry _ => ⟨0, 0, 0⟩
  | .evictionSwitch _ => ⟨0, 0, 0⟩
  | .backgroundZeroing _ => ⟨0, 0, 0⟩
  | .spireErrorThreshold _ _ _ => ⟨0, 0, 0⟩
  | .spireLaneFail _ _ => ⟨0, 0, 0⟩
  | .sprqDecide _ _ => ⟨0, 0, 0⟩
  | .sprqSpare _ _ => ⟨0, 0, 0⟩
  | .sprqReroute _ _ => ⟨0, 0, 0⟩
  | .spireRetirement _ _ => ⟨0, 0, 0⟩
  | .bufferMigration _ _ => ⟨0, 0, 0⟩
  | .sensorSample _ _ _ => ⟨0, 0, 0⟩
  | .thermalStepTimer _ => ⟨0, 0, 0⟩
  | .thermalReleaseTimer _ => ⟨0, 0, 0⟩
  | .powerThrottleAdjust _ _ => ⟨0, 0, 0⟩
  | .softErrorAtRest _ _ => ⟨0, 0, 0⟩
  | .supervisorTrapEntry _ => ⟨0, 0, 0⟩
  | .heldTrapRetry _ => ⟨0, 0, 0⟩
  | .cfsynResume _ _ => ⟨0, 0, 0⟩
  | .cfsynSuspend _ _ => ⟨0, 0, 0⟩
  | .tfgoFill _ _ => ⟨0, 0, 0⟩
  | .tfgoFail _ _ => ⟨0, 0, 0⟩
  | .tkillTask _ _ => ⟨0, 0, 0⟩
  | .tkillContextTower _ _ => ⟨0, 0, 0⟩
  | .tkillContextPackage _ _ => ⟨0, 0, 0⟩
  | .sevw _ _ => ⟨0, 0, 0⟩
  | .svcr _ _ => ⟨0, 0, 0⟩
  | .otw _ _ => ⟨0, 0, 0⟩
  | .otwBusyClear _ => ⟨0, 0, 0⟩
  | .xinvPage _ _ => ⟨0, 0, 0⟩
  | .xinvContext _ _ => ⟨0, 0, 0⟩
  | .xinvAll _ _ => ⟨0, 0, 0⟩
  | .xinvDone => ⟨0, 0, 0⟩
  | .vbdEnable _ _ _ _ => ⟨0, 0, 0⟩
  | .vbdDisable _ _ _ _ => ⟨0, 0, 0⟩
  | .cfmWrite _ _ _ => ⟨0, 0, 0⟩
  | .budWrite _ _ _ => ⟨0, 0, 0⟩
  | .frmcfgWrite _ => ⟨0, 0, 0⟩
  | .tofsWrite _ => ⟨0, 0, 0⟩
  | .hcwWrite _ _ => ⟨0, 0, 0⟩
  | .registerWrite _ _ _ => ⟨0, 0, 0⟩
  | .hostPostedWrite _ _ _ => ⟨0, 0, 0⟩
  | .hostRead _ _ _ => ⟨0, 0, 0⟩
  | .hostAtomicRequest _ _ => ⟨0, 0, 0⟩
  | .platctlWrite _ => ⟨0, 0, 0⟩
  | .resumeWrite _ => ⟨0, 0, 0⟩
  | .controlWindowWrite _ _ => ⟨0, 0, 0⟩
  | .linkTraining _ _ _ => ⟨0, 0, 0⟩
  | .packageReset => ⟨0, 0, 0⟩
  | .pcieLinkTrain => ⟨0, 0, 0⟩
  | .aknelVerify _ _ => ⟨0, 0, 0⟩
  | .dramSpireTraining _ _ => ⟨0, 0, 0⟩
  | .malaskunStart _ _ => ⟨0, 0, 0⟩
  | .attestationRequest _ => ⟨0, 0, 0⟩
  | .accessPerformedAtHome _ _ _ => ⟨0, 0, 0⟩
  | .ptpMasterLost => ⟨0, 0, 0⟩

end Sys2Proof
end

