-- ==== Sys2Proof/Decode.lean ====
section
/-!
DEFINITION. The decoder of bundles and syllables, total on any bytes and words, and the encoder, both from the encoding
tables of spec 11_bundle_encoding.md (R216 to R231). A code that is no instruction is rejected by name.
-/
namespace Sys2Proof

/-- Why bytes are no instruction (R218, R222, R228). -/
inductive Reject where
  /-- fewer bytes than the bundle has -/
  | truncated
  /-- a reserved template bit, or DRAIN without XFER or XFERL -/
  | illegalBundle
  /-- an opcode that the slot does not assign -/
  | illegalOpcode (slot : Nat)
  /-- a field or code outside its limits -/
  | illegalOperand (slot : Nat)
  deriving DecidableEq, Repr

/-- A bundle split into its template marks and its syllables in ascending slot order (R216, R217). -/
structure Bundle where
  stop : Bool
  drain : Bool
  syls : List (Nat × Word)
  deriving DecidableEq, Repr

/-! ### Fields -/

/-- The common fields of a syllable (R222). -/
def Head.ofWord (w : Word) : Head := ⟨w.extractLsb' 52 4, w.extractLsb' 51 1, w.extractLsb' 49 2⟩

/-- The bits of the common fields. -/
def Head.bits (h : Head) : Nat := h.pf.toNat * 2 ^ 52 + h.pn.toNat * 2 ^ 51 + h.ac.toNat * 2 ^ 49

/-- The fields of format SREG (R224). -/
def SReg.ofWord (w : Word) : SReg :=
  ⟨w.extractLsb' 42 7, w.extractLsb' 35 7, w.extractLsb' 28 7, w.extractLsb' 21 7, w.extractLsb' 17 4, w.extractLsb' 0 17⟩

/-- The bits of format SREG (R224). -/
def SReg.bits (f : SReg) : Nat :=
  f.d.toNat * 2 ^ 42 +
    f.a.toNat * 2 ^ 35 +
    f.b.toNat * 2 ^ 28 +
    f.c.toNat * 2 ^ 21 +
    f.f.toNat * 2 ^ 17 +
    f.x.toNat

/-- The fields of format SIMM (R224). -/
def SImm.ofWord (w : Word) : SImm :=
  ⟨w.extractLsb' 42 7, w.extractLsb' 35 7, w.extractLsb' 0 35⟩

/-- The bits of format SIMM (R224). -/
def SImm.bits (f : SImm) : Nat :=
  f.d.toNat * 2 ^ 42 +
    f.a.toNat * 2 ^ 35 +
    f.imm.toNat

/-- The fields of format SLONG (R224). -/
def SLong.ofWord (w : Word) : SLong :=
  ⟨w.extractLsb' 42 7, w.extractLsb' 0 42⟩

/-- The bits of format SLONG (R224). -/
def SLong.bits (f : SLong) : Nat :=
  f.d.toNat * 2 ^ 42 +
    f.imm.toNat

/-- The fields of format XFR (R224). -/
def Xfr.ofWord (w : Word) : Xfr :=
  ⟨w.extractLsb' 46 3, w.extractLsb' 44 2, w.extractLsb' 37 7, w.extractLsb' 0 37⟩

/-- The bits of format XFR (R224). -/
def Xfr.bits (f : Xfr) : Nat :=
  f.t.toNat * 2 ^ 46 +
    f.dly.toNat * 2 ^ 44 +
    f.a.toNat * 2 ^ 37 +
    f.imm.toNat

/-- The fields of format AGEN (R224). -/
def AGen.ofWord (w : Word) : AGen :=
  ⟨w.extractLsb' 45 4, w.extractLsb' 43 2, w.extractLsb' 36 7, w.extractLsb' 0 36⟩

/-- The bits of format AGEN (R224). -/
def AGen.bits (f : AGen) : Nat :=
  f.ab.toNat * 2 ^ 45 +
    f.dim.toNat * 2 ^ 43 +
    f.a.toNat * 2 ^ 36 +
    f.imm.toNat

/-- The fields of format VECF (R224). -/
def VecF.ofWord (w : Word) : VecF :=
  ⟨w.extractLsb' 39 10, w.extractLsb' 38 1, w.extractLsb' 28 10, w.extractLsb' 18 10, w.extractLsb' 8 10, w.extractLsb' 4 4, w.extractLsb' 0 4⟩

/-- The bits of format VECF (R224). -/
def VecF.bits (f : VecF) : Nat :=
  f.dst.toNat * 2 ^ 39 +
    f.nwb.toNat * 2 ^ 38 +
    f.s1.toNat * 2 ^ 28 +
    f.s2.toNat * 2 ^ 18 +
    f.s3.toNat * 2 ^ 8 +
    f.ty.toNat * 2 ^ 4 +
    f.md.toNat

/-- The fields of format MATF (R224). -/
def MatF.ofWord (w : Word) : MatF :=
  ⟨w.extractLsb' 46 3, w.extractLsb' 36 10, w.extractLsb' 26 10, w.extractLsb' 8 18, w.extractLsb' 4 4, w.extractLsb' 0 4⟩

/-- The bits of format MATF (R224). -/
def MatF.bits (f : MatF) : Nat :=
  f.z.toNat * 2 ^ 46 +
    f.s1.toNat * 2 ^ 36 +
    f.s2.toNat * 2 ^ 26 +
    f.aux.toNat * 2 ^ 8 +
    f.ty.toNat * 2 ^ 4 +
    f.md.toNat

/-- The fields of format MEMF (R224). -/
def MemF.ofWord (w : Word) : MemF :=
  ⟨w.extractLsb' 39 10, w.extractLsb' 34 5, w.extractLsb' 29 5, w.extractLsb' 22 7, w.extractLsb' 20 2, w.extractLsb' 17 3, w.extractLsb' 0 17⟩

/-- The bits of format MEMF (R224). -/
def MemF.bits (f : MemF) : Nat :=
  f.data.toNat * 2 ^ 39 +
    f.b.toNat * 2 ^ 34 +
    f.h.toNat * 2 ^ 29 +
    f.x.toNat * 2 ^ 22 +
    f.ord.toNat * 2 ^ 20 +
    f.scope.toNat * 2 ^ 17 +
    f.imm.toNat

/-- The fields of format CMDF (R224). -/
def CmdF.ofWord (w : Word) : CmdF :=
  ⟨w.extractLsb' 42 7, w.extractLsb' 35 7, w.extractLsb' 28 7, w.extractLsb' 21 7, w.extractLsb' 14 7, w.extractLsb' 0 14⟩

/-- The bits of format CMDF (R224). -/
def CmdF.bits (f : CmdF) : Nat :=
  f.tok.toNat * 2 ^ 42 +
    f.a.toNat * 2 ^ 35 +
    f.b.toNat * 2 ^ 28 +
    f.c.toNat * 2 ^ 21 +
    f.d.toNat * 2 ^ 14 +
    f.x.toNat

/-- The fields of format SYSF (R224). -/
def SysF.ofWord (w : Word) : SysF :=
  ⟨w.extractLsb' 42 7, w.extractLsb' 35 7, w.extractLsb' 28 7, w.extractLsb' 0 28⟩

/-- The bits of format SYSF (R224). -/
def SysF.bits (f : SysF) : Nat :=
  f.d.toNat * 2 ^ 42 +
    f.a.toNat * 2 ^ 35 +
    f.b.toNat * 2 ^ 28 +
    f.imm.toNat

/-! ### Syllables by slot -/

/-- SCA and SCB (R228). -/
def decodeScalar (p : Port) (w : Word) : Option Instr :=
  match w.toNat / 2 ^ 56 with
  | 0x01 => some (.add p (.ofWord w) (.ofWord w))
  | 0x02 => some (.sub p (.ofWord w) (.ofWord w))
  | 0x03 => some (.addi p (.ofWord w) (.ofWord w))
  | 0x04 => some (.mul p (.ofWord w) (.ofWord w))
  | 0x05 => some (.mulh p (.ofWord w) (.ofWord w))
  | 0x06 => some (.mulhu p (.ofWord w) (.ofWord w))
  | 0x07 => if p = .sca then some (.div (.ofWord w) (.ofWord w)) else none
  | 0x08 => if p = .sca then some (.divu (.ofWord w) (.ofWord w)) else none
  | 0x09 => if p = .sca then some (.rem (.ofWord w) (.ofWord w)) else none
  | 0x0A => if p = .sca then some (.remu (.ofWord w) (.ofWord w)) else none
  | 0x0B => some (.addpc p (.ofWord w) (.ofWord w))
  | 0x10 => some (.and p (.ofWord w) (.ofWord w))
  | 0x11 => some (.or p (.ofWord w) (.ofWord w))
  | 0x12 => some (.xor p (.ofWord w) (.ofWord w))
  | 0x13 => some (.andn p (.ofWord w) (.ofWord w))
  | 0x14 => some (.andi p (.ofWord w) (.ofWord w))
  | 0x15 => some (.ori p (.ofWord w) (.ofWord w))
  | 0x16 => some (.xori p (.ofWord w) (.ofWord w))
  | 0x18 => some (.shl p (.ofWord w) (.ofWord w))
  | 0x19 => some (.shr p (.ofWord w) (.ofWord w))
  | 0x1A => some (.sar p (.ofWord w) (.ofWord w))
  | 0x1B => some (.shli p (.ofWord w) (.ofWord w))
  | 0x1C => some (.shri p (.ofWord w) (.ofWord w))
  | 0x1D => some (.sari p (.ofWord w) (.ofWord w))
  | 0x1E => some (.fshl p (.ofWord w) (.ofWord w))
  | 0x1F => some (.fshr p (.ofWord w) (.ofWord w))
  | 0x20 => some (.cmp p (.ofWord w) (.ofWord w))
  | 0x21 => some (.cmpi p (.ofWord w) (.ofWord w))
  | 0x22 => some (.sel p (.ofWord w) (.ofWord w))
  | 0x23 => some (.min p (.ofWord w) (.ofWord w))
  | 0x24 => some (.max p (.ofWord w) (.ofWord w))
  | 0x25 => some (.minu p (.ofWord w) (.ofWord w))
  | 0x26 => some (.maxu p (.ofWord w) (.ofWord w))
  | 0x28 => some (.bfx p (.ofWord w) (.ofWord w))
  | 0x29 => some (.bfxu p (.ofWord w) (.ofWord w))
  | 0x2A => some (.bfi p (.ofWord w) (.ofWord w))
  | 0x30 => some (.clz p (.ofWord w) (.ofWord w))
  | 0x31 => some (.ctz p (.ofWord w) (.ofWord w))
  | 0x32 => some (.popc p (.ofWord w) (.ofWord w))
  | 0x33 => some (.brev p (.ofWord w) (.ofWord w))
  | 0x34 => some (.bswap p (.ofWord w) (.ofWord w))
  | 0x38 => some (.li p (.ofWord w) (.ofWord w))
  | 0x39 => some (.lih p (.ofWord w) (.ofWord w))
  | 0x3C => if p = .sca then some (.phash (.ofWord w) (.ofWord w)) else none
  | _ => none

/-- CTL (R228). -/
def decodeCtl (w : Word) : Option Instr :=
  match w.toNat / 2 ^ 56 with
  | 0x01 => some (.pbr (.ofWord w) (.ofWord w))
  | 0x02 => some (.pbrr (.ofWord w) (.ofWord w))
  | 0x03 => some (.xfer (.ofWord w) (.ofWord w))
  | 0x04 => some (.xferl (.ofWord w) (.ofWord w))
  | 0x08 => some (.loop (.ofWord w) (.ofWord w))
  | 0x09 => some (.loopi (.ofWord w) (.ofWord w))
  | 0x0A => some (.breakLoop (.ofWord w) (.ofWord w))
  | 0x10 => some (.vany (.ofWord w) (.ofWord w))
  | 0x11 => some (.vall (.ofWord w) (.ofWord w))
  | 0x14 => some (.fop (.ofWord w) (.ofWord w))
  | 0x18 => some (.wfe (.ofWord w) (.ofWord w))
  | 0x19 => some (.sev (.ofWord w) (.ofWord w))
  | 0x1F => some (.tend (.ofWord w) (.ofWord w))
  | _ => none

/-- AGU (R229). -/
def decodeAgu (w : Word) : Option Instr :=
  match w.toNat / 2 ^ 56 with
  | 0x01 => some (.amov (.ofWord w) (.ofWord w))
  | 0x02 => some (.aadd (.ofWord w) (.ofWord w))
  | 0x03 => some (.aaddi (.ofWord w) (.ofWord w))
  | 0x08 => some (.acfg (.ofWord w) (.ofWord w))
  | 0x09 => some (.aind (.ofWord w) (.ofWord w))
  | 0x0A => some (.arun (.ofWord w) (.ofWord w))
  | 0x0B => some (.astop (.ofWord w) (.ofWord w))
  | _ => none

/-- VEC (R229). MOD[0] of 0x32 tells the broadcast of a lane from that of a scalar (R301). -/
def decodeVec (w : Word) : Option Instr :=
  match w.toNat / 2 ^ 56 with
  | 0x01 => some (.vadd (.ofWord w) (.ofWord w))
  | 0x02 => some (.vsub (.ofWord w) (.ofWord w))
  | 0x03 => some (.vmul (.ofWord w) (.ofWord w))
  | 0x04 => some (.vfma (.ofWord w) (.ofWord w))
  | 0x05 => some (.vmin (.ofWord w) (.ofWord w))
  | 0x06 => some (.vmax (.ofWord w) (.ofWord w))
  | 0x07 => some (.vabs (.ofWord w) (.ofWord w))
  | 0x08 => some (.vneg (.ofWord w) (.ofWord w))
  | 0x09 => some (.vadds (.ofWord w) (.ofWord w))
  | 0x0A => some (.vsubs (.ofWord w) (.ofWord w))
  | 0x0B => some (.vmulh (.ofWord w) (.ofWord w))
  | 0x10 => some (.vand (.ofWord w) (.ofWord w))
  | 0x11 => some (.vor (.ofWord w) (.ofWord w))
  | 0x12 => some (.vxor (.ofWord w) (.ofWord w))
  | 0x13 => some (.vandn (.ofWord w) (.ofWord w))
  | 0x14 => some (.vshl (.ofWord w) (.ofWord w))
  | 0x15 => some (.vshr (.ofWord w) (.ofWord w))
  | 0x16 => some (.vsar (.ofWord w) (.ofWord w))
  | 0x17 => some (.vpopc (.ofWord w) (.ofWord w))
  | 0x18 => some (.vcvt (.ofWord w) (.ofWord w))
  | 0x19 => some (.vpack (.ofWord w) (.ofWord w))
  | 0x1A => some (.vunpk (.ofWord w) (.ofWord w))
  | 0x20 => some (.vrsum (.ofWord w) (.ofWord w))
  | 0x21 => some (.vrmax (.ofWord w) (.ofWord w))
  | 0x22 => some (.vrmin (.ofWord w) (.ofWord w))
  | 0x23 => some (.vrand (.ofWord w) (.ofWord w))
  | 0x24 => some (.vror (.ofWord w) (.ofWord w))
  | 0x28 => some (.vcmp (.ofWord w) (.ofWord w))
  | 0x29 => some (.vqand (.ofWord w) (.ofWord w))
  | 0x2A => some (.vqor (.ofWord w) (.ofWord w))
  | 0x2B => some (.vqnot (.ofWord w) (.ofWord w))
  | 0x30 => some (.vsel (.ofWord w) (.ofWord w))
  | 0x31 => some (.vperm (.ofWord w) (.ofWord w))
  | 0x32 => if w.getLsbD 0 then some (.vbcastLn (.ofWord w) (.ofWord w)) else some (.vbcast (.ofWord w) (.ofWord w))
  | 0x33 => some (.vmov (.ofWord w) (.ofWord w))
  | 0x34 => some (.vins (.ofWord w) (.ofWord w))
  | 0x35 => some (.vext (.ofWord w) (.ofWord w))
  | 0x38 => some (.vzps (.ofWord w) (.ofWord w))
  | 0x39 => some (.vplx (.ofWord w) (.ofWord w))
  | 0x3A => some (.vpli (.ofWord w) (.ofWord w))
  | 0x3C => some (.vexp2 (.ofWord w) (.ofWord w))
  | 0x3D => some (.vrcp (.ofWord w) (.ofWord w))
  | 0x3E => some (.vmrg (.ofWord w) (.ofWord w))
  | _ => none

/-- GAT (R229). -/
def decodeGat (w : Word) : Option Instr :=
  match w.toNat / 2 ^ 56 with
  | 0x01 => some (.gidx (.ofWord w) (.ofWord w))
  | 0x02 => some (.gath (.ofWord w) (.ofWord w))
  | _ => none

/-- MTX (R229). -/
def decodeMtx (w : Word) : Option Instr :=
  match w.toNat / 2 ^ 56 with
  | 0x01 => some (.mcfg (.ofWord w) (.ofWord w))
  | 0x02 => some (.mzero (.ofWord w) (.ofWord w))
  | 0x04 => some (.mpush (.ofWord w) (.ofWord w))
  | 0x05 => some (.mshf (.ofWord w) (.ofWord w))
  | 0x06 => some (.macc (.ofWord w) (.ofWord w))
  | 0x07 => some (.macch (.ofWord w) (.ofWord w))
  | 0x08 => some (.mdrn (.ofWord w) (.ofWord w))
  | _ => none

/-- MLS (R230). -/
def decodeMls (w : Word) : Option Instr :=
  match w.toNat / 2 ^ 56 with
  | 0x01 => some (.ld (.ofWord w) (.ofWord w))
  | 0x02 => some (.ldz (.ofWord w) (.ofWord w))
  | 0x03 => some (.st (.ofWord w) (.ofWord w))
  | 0x04 => some (.vld (.ofWord w) (.ofWord w))
  | 0x05 => some (.vst (.ofWord w) (.ofWord w))
  | 0x06 => some (.tld (.ofWord w) (.ofWord w))
  | 0x07 => some (.tst (.ofWord w) (.ofWord w))
  | 0x08 => some (.amo (.ofWord w) (.ofWord w))
  | 0x09 => some (.cas (.ofWord w) (.ofWord w))
  | 0x0F => some (.mark (.ofWord w) (.ofWord w))
  | _ => none

/-- MGL (R230). -/
def decodeMgl (w : Word) : Option Instr :=
  match w.toNat / 2 ^ 56 with
  | 0x01 => some (.gld (.ofWord w) (.ofWord w))
  | 0x02 => some (.gldz (.ofWord w) (.ofWord w))
  | 0x03 => some (.gst (.ofWord w) (.ofWord w))
  | 0x04 => some (.gvld (.ofWord w) (.ofWord w))
  | 0x05 => some (.gvst (.ofWord w) (.ofWord w))
  | 0x06 => some (.gtld (.ofWord w) (.ofWord w))
  | 0x07 => some (.gtst (.ofWord w) (.ofWord w))
  | 0x08 => some (.gamo (.ofWord w) (.ofWord w))
  | 0x09 => some (.gcas (.ofWord w) (.ofWord w))
  | 0x0F => some (.gmark (.ofWord w) (.ofWord w))
  | _ => none

/-- MTW (R230). -/
def decodeMtw (w : Word) : Option Instr :=
  match w.toNat / 2 ^ 56 with
  | 0x01 => some (.wld (.ofWord w) (.ofWord w))
  | 0x02 => some (.wldz (.ofWord w) (.ofWord w))
  | 0x03 => some (.wst (.ofWord w) (.ofWord w))
  | 0x04 => some (.wvld (.ofWord w) (.ofWord w))
  | 0x05 => some (.wvst (.ofWord w) (.ofWord w))
  | 0x06 => some (.wtld (.ofWord w) (.ofWord w))
  | 0x07 => some (.wtst (.ofWord w) (.ofWord w))
  | 0x08 => some (.wamo (.ofWord w) (.ofWord w))
  | 0x09 => some (.wcas (.ofWord w) (.ofWord w))
  | 0x0F => some (.wmark (.ofWord w) (.ofWord w))
  | 0x10 => some (.bld (.ofWord w) (.ofWord w))
  | 0x11 => some (.xlate (.ofWord w) (.ofWord w))
  | _ => none

/-- CPY (R231). Where a register chooses among functions of one opcode, the first form stands for all (R336 to R340). -/
def decodeCpy (w : Word) : Option Instr :=
  match w.toNat / 2 ^ 56 with
  | 0x01 => some (.cpy (.ofWord w) (.ofWord w))
  | 0x02 => some (.cpyt (.ofWord w) (.ofWord w))
  | 0x03 => some (.pxfer (.ofWord w) (.ofWord w))
  | 0x04 => some (.waitc (.ofWord w) (.ofWord w))
  | 0x10 => some (.sqopen (.ofWord w) (.ofWord w))
  | 0x11 => some (.sqclose (.ofWord w) (.ofWord w))
  | 0x12 => some (.sqnode (.ofWord w) (.ofWord w))
  | 0x13 => some (.sqchk (.ofWord w) (.ofWord w))
  | 0x14 => some (.sqacc (.ofWord w) (.ofWord w))
  | 0x15 => some (.sqsave (.ofWord w) (.ofWord w))
  | 0x16 => some (.sqrst (.ofWord w) (.ofWord w))
  | 0x18 => some (.kvgrow (.ofWord w) (.ofWord w))
  | 0x19 => some (.kvcommit (.ofWord w) (.ofWord w))
  | 0x1A => some (.kvroll (.ofWord w) (.ofWord w))
  | 0x1B => some (.kvexport (.ofWord w) (.ofWord w))
  | 0x1C => some (.kvpoolEnable (.ofWord w) (.ofWord w))
  | 0x20 => some (.pfxlook (.ofWord w) (.ofWord w))
  | 0x21 => some (.pfxins (.ofWord w) (.ofWord w))
  | 0x22 => some (.pfxpin (.ofWord w) (.ofWord w))
  | 0x28 => some (.stcfgConfigure (.ofWord w) (.ofWord w))
  | _ => none

/-- SYS (R231). IMM[0] of 0x07 tells a wait by tick from a wait by count (R345). -/
def decodeSys (w : Word) : Option Instr :=
  match w.toNat / 2 ^ 56 with
  | 0x01 => some (.spawn (.ofWord w) (.ofWord w))
  | 0x02 => some (.gbar (.ofWord w) (.ofWord w))
  | 0x03 => some (.watch (.ofWord w) (.ofWord w))
  | 0x04 => some (.unwatch (.ofWord w) (.ofWord w))
  | 0x05 => some (.ttrel (.ofWord w) (.ofWord w))
  | 0x06 => some (.rdtime (.ofWord w) (.ofWord w))
  | 0x07 => if w.getLsbD 0 then some (.waittTick (.ofWord w) (.ofWord w)) else some (.waittCyc (.ofWord w) (.ofWord w))
  | 0x08 => some (.budset (.ofWord w) (.ofWord w))
  | 0x10 => some (.vopen (.ofWord w) (.ofWord w))
  | 0x11 => some (.vseal (.ofWord w) (.ofWord w))
  | 0x12 => some (.vhold (.ofWord w) (.ofWord w))
  | 0x13 => some (.vrel (.ofWord w) (.ofWord w))
  | 0x18 => some (.fence (.ofWord w) (.ofWord w))
  | 0x20 => some (.mfsr (.ofWord w) (.ofWord w))
  | 0x21 => some (.mtsr (.ofWord w) (.ofWord w))
  | 0x22 => some (.svc (.ofWord w) (.ofWord w))
  | 0x23 => some (.eret (.ofWord w) (.ofWord w))
  | 0x24 => some (.trap (.ofWord w) (.ofWord w))
  | 0x25 => some (.csld (.ofWord w) (.ofWord w))
  | 0x26 => some (.icinv (.ofWord w) (.ofWord w))
  | 0x27 => some (.halt (.ofWord w) (.ofWord w))
  | 0x30 => some (.mmt (.ofWord w) (.ofWord w))
  | 0x31 => some (.matt (.ofWord w) (.ofWord w))
  | _ => none

/-- The instruction of a syllable in a slot; none where the slot assigns no instruction to its opcode (R228). -/
def decodeSyllable (slot : Nat) (w : Word) : Option Instr :=
  match slot with
  | 0 => decodeCtl w
  | 1 => decodeScalar .sca w
  | 2 => decodeScalar .scb w
  | 3 => decodeAgu w
  | 4 => decodeVec w
  | 5 => decodeGat w
  | 6 => decodeMtx w
  | 7 => decodeMls w
  | 8 => decodeMgl w
  | 9 => decodeMtw w
  | 10 => decodeCpy w
  | 11 => decodeSys w
  | _ => none

/-! ### Bundles -/

/-- A little-endian number. -/
def bytesNat : List Byte → Nat
  | [] => 0
  | b :: bs => b.toNat + 256 * bytesNat bs

/-- The `n` little-endian bytes of a number. -/
def natBytes : Nat → Nat → List Byte
  | 0, _ => []
  | n + 1, x => BitVec.ofNat 8 x :: natBytes n (x / 256)

/-- The slots a template word names, in ascending order (R216). -/
def presentSlots (t : Nat) : List Nat := [0, 1, 2, 3, 4, 5, 6, 7, 8, 9, 10, 11].filter (fun n => t.testBit (20 + n))

/-- The length in bytes of the bundle with a template word (R216). -/
def bundleLen (t : Nat) : Nat := 4 + 8 * (presentSlots t).length

/-- The syllables of a bundle: 8 little-endian bytes for each slot named. -/
def takeSyllables : List Nat → List Byte → Option (List (Nat × Word) × List Byte)
  | [], bs => some ([], bs)
  | n :: ns, bs =>
    if bs.length < 8 then none
    else
      match takeSyllables ns (bs.drop 8) with
      | some (l, rest) => some ((n, BitVec.ofNat 64 (bytesNat (bs.take 8))) :: l, rest)
      | none => none

/-- Is a syllable XFER or XFERL by its slot and opcode (R218)? -/
def isXfer (x : Nat × Word) : Bool := decide (x.1 = 0) && (decide (x.2.toNat / 2 ^ 56 = 3) || decide (x.2.toNat / 2 ^ 56 = 4))

/-- Split bytes into a bundle and the rest, with the template checks of R218. -/
def splitBundle (bs : List Byte) : Except Reject (Bundle × List Byte) :=
  if bs.length < 4 then .error .truncated
  else
    let t := bytesNat (bs.take 4)
    match takeSyllables (presentSlots t) (bs.drop 4) with
    | none => .error .truncated
    | some (l, rest) =>
      if t % 2 ^ 18 ≠ 0 ∨ (t.testBit 19 = true ∧ l.any isXfer = false) then .error .illegalBundle
      else .ok (⟨t.testBit 18, t.testBit 19, l⟩, rest)

/-- A syllable's instruction, or the name of its rejection (R227). -/
def checkSyllable (x : Nat × Word) : Except Reject Instr :=
  match decodeSyllable x.1 x.2 with
  | none => .error (.illegalOpcode x.1)
  | some i => if i.wf then .ok i else .error (.illegalOperand x.1)

/-- The instructions of a list of syllables, or the first rejection. -/
def checkSyllables : List (Nat × Word) → Except Reject (List Instr)
  | [] => .ok []
  | x :: l =>
    match checkSyllable x with
    | .error e => .error e
    | .ok i =>
      match checkSyllables l with
      | .error e => .error e
      | .ok is => .ok (i :: is)

/-- Decode one bundle with every syllable, whatever its predicate: the instructions, and the rest of the bytes. -/
def decodeBundle (bs : List Byte) : Except Reject (Bundle × List Instr × List Byte) :=
  match splitBundle bs with
  | .error e => .error e
  | .ok (b, rest) =>
    match checkSyllables b.syls with
    | .error e => .error e
    | .ok is => .ok (b, is, rest)

/-- The instruction of a bundle that holds none or one: the empty bundle is NOP (R217). -/
def decodeOne (bs : List Byte) : Except Reject Instr :=
  match decodeBundle bs with
  | .error e => .error e
  | .ok (b, is, _) =>
    match is with
    | [] => .ok (.nop b.stop)
    | [i] => .ok i
    | _ :: _ :: _ => .error .illegalBundle

/-- The instruction the decoder reads from an instruction word of the opcode table: its bits, laid out as the hardware stores
them, with zeros above. -/
def decodeTableWord (nbits w : Nat) : Option Instr :=
  match decodeOne (natBytes 100 (w % 2 ^ nbits)) with
  | .ok i => some i
  | .error _ => none

/-! ### The encoder -/

/-- The opcode of a syllable (R228 to R231); 0 for a step that is no syllable. -/
def Instr.opc : Instr → Nat
  | .nop _ => 0
  | .bundleIssue _ => 0
  | .budgetTrap _ _ => 0
  | .add _ _ _ => 0x01
  | .sub _ _ _ => 0x02
  | .addi _ _ _ => 0x03
  | .mul _ _ _ => 0x04
  | .mulh _ _ _ => 0x05
  | .mulhu _ _ _ => 0x06
  | .div _ _ => 0x07
  | .divu _ _ => 0x08
  | .rem _ _ => 0x09
  | .remu _ _ => 0x0A
  | .addpc _ _ _ => 0x0B
  | .and _ _ _ => 0x10
  | .or _ _ _ => 0x11
  | .xor _ _ _ => 0x12
  | .andn _ _ _ => 0x13
  | .andi _ _ _ => 0x14
  | .ori _ _ _ => 0x15
  | .xori _ _ _ => 0x16
  | .shl _ _ _ => 0x18
  | .shr _ _ _ => 0x19
  | .sar _ _ _ => 0x1A
  | .shli _ _ _ => 0x1B
  | .shri _ _ _ => 0x1C
  | .sari _ _ _ => 0x1D
  | .fshl _ _ _ => 0x1E
  | .fshr _ _ _ => 0x1F
  | .cmp _ _ _ => 0x20
  | .cmpi _ _ _ => 0x21
  | .sel _ _ _ => 0x22
  | .min _ _ _ => 0x23
  | .max _ _ _ => 0x24
  | .minu _ _ _ => 0x25
  | .maxu _ _ _ => 0x26
  | .bfx _ _ _ => 0x28
  | .bfxu _ _ _ => 0x29
  | .bfi _ _ _ => 0x2A
  | .clz _ _ _ => 0x30
  | .ctz _ _ _ => 0x31
  | .popc _ _ _ => 0x32
  | .brev _ _ _ => 0x33
  | .bswap _ _ _ => 0x34
  | .li _ _ _ => 0x38
  | .lih _ _ _ => 0x39
  | .phash _ _ => 0x3C
  | .pbr _ _ => 0x01
  | .pbrr _ _ => 0x02
  | .xfer _ _ => 0x03
  | .xferl _ _ => 0x04
  | .loop _ _ => 0x08
  | .loopi _ _ => 0x09
  | .breakLoop _ _ => 0x0A
  | .vany _ _ => 0x10
  | .vall _ _ => 0x11
  | .fop _ _ => 0x14
  | .wfe _ _ => 0x18
  | .sev _ _ => 0x19
  | .tend _ _ => 0x1F
  | .amov _ _ => 0x01
  | .aadd _ _ => 0x02
  | .aaddi _ _ => 0x03
  | .acfg _ _ => 0x08
  | .aind _ _ => 0x09
  | .arun _ _ => 0x0A
  | .astop _ _ => 0x0B
  | .generatorStep _ => 0
  | .vadd _ _ => 0x01
  | .vsub _ _ => 0x02
  | .vmul _ _ => 0x03
  | .vfma _ _ => 0x04
  | .vmin _ _ => 0x05
  | .vmax _ _ => 0x06
  | .vabs _ _ => 0x07
  | .vneg _ _ => 0x08
  | .vadds _ _ => 0x09
  | .vsubs _ _ => 0x0A
  | .vmulh _ _ => 0x0B
  | .vand _ _ => 0x10
  | .vor _ _ => 0x11
  | .vxor _ _ => 0x12
  | .vandn _ _ => 0x13
  | .vshl _ _ => 0x14
  | .vshr _ _ => 0x15
  | .vsar _ _ => 0x16
  | .vpopc _ _ => 0x17
  | .vcvt _ _ => 0x18
  | .vpack _ _ => 0x19
  | .vunpk _ _ => 0x1A
  | .vrsum _ _ => 0x20
  | .vrmax _ _ => 0x21
  | .vrmin _ _ => 0x22
  | .vrand _ _ => 0x23
  | .vror _ _ => 0x24
  | .vcmp _ _ => 0x28
  | .vqand _ _ => 0x29
  | .vqor _ _ => 0x2A
  | .vqnot _ _ => 0x2B
  | .vsel _ _ => 0x30
  | .vperm _ _ => 0x31
  | .vbcast _ _ => 0x32
  | .vbcastLn _ _ => 0x32
  | .vmov _ _ => 0x33
  | .vins _ _ => 0x34
  | .vext _ _ => 0x35
  | .vzps _ _ => 0x38
  | .vplx _ _ => 0x39
  | .vpli _ _ => 0x3A
  | .vexp2 _ _ => 0x3C
  | .vrcp _ _ => 0x3D
  | .vmrg _ _ => 0x3E
  | .gidx _ _ => 0x01
  | .gath _ _ => 0x02
  | .mcfg _ _ => 0x01
  | .busEpochStart _ _ _ => 0
  | .mzero _ _ => 0x02
  | .mpush _ _ => 0x04
  | .mshf _ _ => 0x05
  | .macc _ _ => 0x06
  | .macch _ _ => 0x07
  | .mdrn _ _ => 0x08
  | .grantWindow _ _ _ => 0
  | .ld _ _ => 0x01
  | .ldz _ _ => 0x02
  | .st _ _ => 0x03
  | .vld _ _ => 0x04
  | .vst _ _ => 0x05
  | .tld _ _ => 0x06
  | .tst _ _ => 0x07
  | .amo _ _ => 0x08
  | .cas _ _ => 0x09
  | .mark _ _ => 0x0F
  | .gld _ _ => 0x01
  | .gldz _ _ => 0x02
  | .gst _ _ => 0x03
  | .gvld _ _ => 0x04
  | .gvst _ _ => 0x05
  | .gtld _ _ => 0x06
  | .gtst _ _ => 0x07
  | .gamo _ _ => 0x08
  | .gcas _ _ => 0x09
  | .gmark _ _ => 0x0F
  | .wld _ _ => 0x01
  | .wldz _ _ => 0x02
  | .wst _ _ => 0x03
  | .wvld _ _ => 0x04
  | .wvst _ _ => 0x05
  | .wtld _ _ => 0x06
  | .wtst _ _ => 0x07
  | .wamo _ _ => 0x08
  | .wcas _ _ => 0x09
  | .wmark _ _ => 0x0F
  | .bld _ _ => 0x10
  | .xlate _ _ => 0x11
  | .fence _ _ => 0x18
  | .cpy _ _ => 0x01
  | .cpyt _ _ => 0x02
  | .copyIssue _ => 0
  | .chunkLand _ _ _ => 0
  | .waitc _ _ => 0x04
  | .pxfer _ _ => 0x03
  | .peerChunkReceive _ _ _ _ => 0
  | .sqopen _ _ => 0x10
  | .sqclose _ _ => 0x11
  | .sqnode _ _ => 0x12
  | .sqchk _ _ => 0x13
  | .sqacc _ _ => 0x14
  | .sqaccAssistComplete _ _ => 0x14
  | .sqsave _ _ => 0x15
  | .sqrst _ _ => 0x16
  | .kvgrow _ _ => 0x18
  | .kvcommit _ _ => 0x19
  | .kvroll _ _ => 0x1A
  | .kvexport _ _ => 0x1B
  | .kvpoolEnable _ _ => 0x1C
  | .kvpoolDisable _ _ => 0x1C
  | .kvpoolPin _ _ => 0x1C
  | .kvpoolUnpin _ _ => 0x1C
  | .kvpoolSetent _ _ => 0x1C
  | .kvpoolAlloc _ _ => 0x1C
  | .kvpoolFree _ _ => 0x1C
  | .pfxlook _ _ => 0x20
  | .pfxins _ _ => 0x21
  | .pfxinsAssistComplete _ _ => 0x21
  | .pfxpin _ _ => 0x22
  | .stcfgConfigure _ _ => 0x28
  | .stcfgDisable _ _ => 0x28
  | .stcfgEvict _ _ => 0x28
  | .stcfgRestore _ _ => 0x28
  | .spawn _ _ => 0x01
  | .gbar _ _ => 0x02
  | .watch _ _ => 0x03
  | .unwatch _ _ => 0x04
  | .ttrel _ _ => 0x05
  | .rdtime _ _ => 0x06
  | .waittCyc _ _ => 0x07
  | .waittTick _ _ => 0x07
  | .budset _ _ => 0x08
  | .vopen _ _ => 0x10
  | .vseal _ _ => 0x11
  | .vsealPerform _ => 0
  | .vhold _ _ => 0x12
  | .vrel _ _ => 0x13
  | .mfsr _ _ => 0x20
  | .mtsr _ _ => 0x21
  | .svc _ _ => 0x22
  | .eret _ _ => 0x23
  | .trap _ _ => 0x24
  | .csld _ _ => 0x25
  | .icinv _ _ => 0x26
  | .halt _ _ => 0x27
  | .mmt _ _ => 0x30
  | .matt _ _ => 0x31
  | .macroBegin _ _ => 0
  | .taskLaunch _ _ _ => 0
  | .pop _ _ _ _ _ => 0
  | .gangBackoffExpiry _ _ => 0
  | .drainClaimCommit _ _ => 0
  | .preemption _ _ => 0
  | .frameStart => 0
  | .releaseTick _ => 0
  | .streamCheckPoint _ _ => 0
  | .streamTick _ _ => 0
  | .watchTrigger _ => 0
  | .ethFrameReceive _ _ _ => 0
  | .ptpMessage _ _ _ _ _ => 0
  | .streamEviction _ _ => 0
  | .streamRestore _ _ => 0
  | .pageInSwitch _ => 0
  | .evictionRetry _ => 0
  | .evictionSwitch _ => 0
  | .backgroundZeroing _ => 0
  | .spireErrorThreshold _ _ _ => 0
  | .spireLaneFail _ _ => 0
  | .sprqDecide _ _ => 0
  | .sprqSpare _ _ => 0
  | .sprqReroute _ _ => 0
  | .spireRetirement _ _ => 0
  | .bufferMigration _ _ => 0
  | .sensorSample _ _ _ => 0
  | .thermalStepTimer _ => 0
  | .thermalReleaseTimer _ => 0
  | .powerThrottleAdjust _ _ => 0
  | .softErrorAtRest _ _ => 0
  | .supervisorTrapEntry _ => 0
  | .heldTrapRetry _ => 0
  | .cfsynResume _ _ => 0
  | .cfsynSuspend _ _ => 0
  | .tfgoFill _ _ => 0
  | .tfgoFail _ _ => 0
  | .tkillTask _ _ => 0
  | .tkillContextTower _ _ => 0
  | .tkillContextPackage _ _ => 0
  | .sevw _ _ => 0
  | .svcr _ _ => 0
  | .otw _ _ => 0
  | .otwBusyClear _ => 0
  | .xinvPage _ _ => 0
  | .xinvContext _ _ => 0
  | .xinvAll _ _ => 0
  | .xinvDone => 0
  | .vbdEnable _ _ _ _ => 0
  | .vbdDisable _ _ _ _ => 0
  | .cfmWrite _ _ _ => 0
  | .budWrite _ _ _ => 0
  | .frmcfgWrite _ => 0
  | .tofsWrite _ => 0
  | .hcwWrite _ _ => 0
  | .registerWrite _ _ _ => 0
  | .hostPostedWrite _ _ _ => 0
  | .hostRead _ _ _ => 0
  | .hostAtomicRequest _ _ => 0
  | .platctlWrite _ => 0
  | .resumeWrite _ => 0
  | .controlWindowWrite _ _ => 0
  | .linkTraining _ _ _ => 0
  | .packageReset => 0
  | .pcieLinkTrain => 0
  | .aknelVerify _ _ => 0
  | .dramSpireTraining _ _ => 0
  | .malaskunStart _ _ => 0
  | .attestationRequest _ => 0
  | .accessPerformedAtHome _ _ _ => 0
  | .ptpMasterLost => 0

/-- The format bits of a syllable (R224); 0 for a step that is no syllable. -/
def Instr.bits : Instr → Nat
  | .nop _ => 0
  | .bundleIssue _ => 0
  | .budgetTrap _ _ => 0
  | .add _ _ f => f.bits
  | .sub _ _ f => f.bits
  | .addi _ _ f => f.bits
  | .mul _ _ f => f.bits
  | .mulh _ _ f => f.bits
  | .mulhu _ _ f => f.bits
  | .div _ f => f.bits
  | .divu _ f => f.bits
  | .rem _ f => f.bits
  | .remu _ f => f.bits
  | .addpc _ _ f => f.bits
  | .and _ _ f => f.bits
  | .or _ _ f => f.bits
  | .xor _ _ f => f.bits
  | .andn _ _ f => f.bits
  | .andi _ _ f => f.bits
  | .ori _ _ f => f.bits
  | .xori _ _ f => f.bits
  | .shl _ _ f => f.bits
  | .shr _ _ f => f.bits
  | .sar _ _ f => f.bits
  | .shli _ _ f => f.bits
  | .shri _ _ f => f.bits
  | .sari _ _ f => f.bits
  | .fshl _ _ f => f.bits
  | .fshr _ _ f => f.bits
  | .cmp _ _ f => f.bits
  | .cmpi _ _ f => f.bits
  | .sel _ _ f => f.bits
  | .min _ _ f => f.bits
  | .max _ _ f => f.bits
  | .minu _ _ f => f.bits
  | .maxu _ _ f => f.bits
  | .bfx _ _ f => f.bits
  | .bfxu _ _ f => f.bits
  | .bfi _ _ f => f.bits
  | .clz _ _ f => f.bits
  | .ctz _ _ f => f.bits
  | .popc _ _ f => f.bits
  | .brev _ _ f => f.bits
  | .bswap _ _ f => f.bits
  | .li _ _ f => f.bits
  | .lih _ _ f => f.bits
  | .phash _ f => f.bits
  | .pbr _ f => f.bits
  | .pbrr _ f => f.bits
  | .xfer _ f => f.bits
  | .xferl _ f => f.bits
  | .loop _ f => f.bits
  | .loopi _ f => f.bits
  | .breakLoop _ f => f.bits
  | .vany _ f => f.bits
  | .vall _ f => f.bits
  | .fop _ f => f.bits
  | .wfe _ f => f.bits
  | .sev _ f => f.bits
  | .tend _ f => f.bits
  | .amov _ f => f.bits
  | .aadd _ f => f.bits
  | .aaddi _ f => f.bits
  | .acfg _ f => f.bits
  | .aind _ f => f.bits
  | .arun _ f => f.bits
  | .astop _ f => f.bits
  | .generatorStep _ => 0
  | .vadd _ f => f.bits
  | .vsub _ f => f.bits
  | .vmul _ f => f.bits
  | .vfma _ f => f.bits
  | .vmin _ f => f.bits
  | .vmax _ f => f.bits
  | .vabs _ f => f.bits
  | .vneg _ f => f.bits
  | .vadds _ f => f.bits
  | .vsubs _ f => f.bits
  | .vmulh _ f => f.bits
  | .vand _ f => f.bits
  | .vor _ f => f.bits
  | .vxor _ f => f.bits
  | .vandn _ f => f.bits
  | .vshl _ f => f.bits
  | .vshr _ f => f.bits
  | .vsar _ f => f.bits
  | .vpopc _ f => f.bits
  | .vcvt _ f => f.bits
  | .vpack _ f => f.bits
  | .vunpk _ f => f.bits
  | .vrsum _ f => f.bits
  | .vrmax _ f => f.bits
  | .vrmin _ f => f.bits
  | .vrand _ f => f.bits
  | .vror _ f => f.bits
  | .vcmp _ f => f.bits
  | .vqand _ f => f.bits
  | .vqor _ f => f.bits
  | .vqnot _ f => f.bits
  | .vsel _ f => f.bits
  | .vperm _ f => f.bits
  | .vbcast _ f => f.bits
  | .vbcastLn _ f => f.bits
  | .vmov _ f => f.bits
  | .vins _ f => f.bits
  | .vext _ f => f.bits
  | .vzps _ f => f.bits
  | .vplx _ f => f.bits
  | .vpli _ f => f.bits
  | .vexp2 _ f => f.bits
  | .vrcp _ f => f.bits
  | .vmrg _ f => f.bits
  | .gidx _ f => f.bits
  | .gath _ f => f.bits
  | .mcfg _ f => f.bits
  | .busEpochStart _ _ _ => 0
  | .mzero _ f => f.bits
  | .mpush _ f => f.bits
  | .mshf _ f => f.bits
  | .macc _ f => f.bits
  | .macch _ f => f.bits
  | .mdrn _ f => f.bits
  | .grantWindow _ _ _ => 0
  | .ld _ f => f.bits
  | .ldz _ f => f.bits
  | .st _ f => f.bits
  | .vld _ f => f.bits
  | .vst _ f => f.bits
  | .tld _ f => f.bits
  | .tst _ f => f.bits
  | .amo _ f => f.bits
  | .cas _ f => f.bits
  | .mark _ f => f.bits
  | .gld _ f => f.bits
  | .gldz _ f => f.bits
  | .gst _ f => f.bits
  | .gvld _ f => f.bits
  | .gvst _ f => f.bits
  | .gtld _ f => f.bits
  | .gtst _ f => f.bits
  | .gamo _ f => f.bits
  | .gcas _ f => f.bits
  | .gmark _ f => f.bits
  | .wld _ f => f.bits
  | .wldz _ f => f.bits
  | .wst _ f => f.bits
  | .wvld _ f => f.bits
  | .wvst _ f => f.bits
  | .wtld _ f => f.bits
  | .wtst _ f => f.bits
  | .wamo _ f => f.bits
  | .wcas _ f => f.bits
  | .wmark _ f => f.bits
  | .bld _ f => f.bits
  | .xlate _ f => f.bits
  | .fence _ f => f.bits
  | .cpy _ f => f.bits
  | .cpyt _ f => f.bits
  | .copyIssue _ => 0
  | .chunkLand _ _ _ => 0
  | .waitc _ f => f.bits
  | .pxfer _ f => f.bits
  | .peerChunkReceive _ _ _ _ => 0
  | .sqopen _ f => f.bits
  | .sqclose _ f => f.bits
  | .sqnode _ f => f.bits
  | .sqchk _ f => f.bits
  | .sqacc _ f => f.bits
  | .sqaccAssistComplete _ f => f.bits
  | .sqsave _ f => f.bits
  | .sqrst _ f => f.bits
  | .kvgrow _ f => f.bits
  | .kvcommit _ f => f.bits
  | .kvroll _ f => f.bits
  | .kvexport _ f => f.bits
  | .kvpoolEnable _ f => f.bits
  | .kvpoolDisable _ f => f.bits
  | .kvpoolPin _ f => f.bits
  | .kvpoolUnpin _ f => f.bits
  | .kvpoolSetent _ f => f.bits
  | .kvpoolAlloc _ f => f.bits
  | .kvpoolFree _ f => f.bits
  | .pfxlook _ f => f.bits
  | .pfxins _ f => f.bits
  | .pfxinsAssistComplete _ f => f.bits
  | .pfxpin _ f => f.bits
  | .stcfgConfigure _ f => f.bits
  | .stcfgDisable _ f => f.bits
  | .stcfgEvict _ f => f.bits
  | .stcfgRestore _ f => f.bits
  | .spawn _ f => f.bits
  | .gbar _ f => f.bits
  | .watch _ f => f.bits
  | .unwatch _ f => f.bits
  | .ttrel _ f => f.bits
  | .rdtime _ f => f.bits
  | .waittCyc _ f => f.bits
  | .waittTick _ f => f.bits
  | .budset _ f => f.bits
  | .vopen _ f => f.bits
  | .vseal _ f => f.bits
  | .vsealPerform _ => 0
  | .vhold _ f => f.bits
  | .vrel _ f => f.bits
  | .mfsr _ f => f.bits
  | .mtsr _ f => f.bits
  | .svc _ f => f.bits
  | .eret _ f => f.bits
  | .trap _ f => f.bits
  | .csld _ f => f.bits
  | .icinv _ f => f.bits
  | .halt _ f => f.bits
  | .mmt _ f => f.bits
  | .matt _ f => f.bits
  | .macroBegin _ _ => 0
  | .taskLaunch _ _ _ => 0
  | .pop _ _ _ _ _ => 0
  | .gangBackoffExpiry _ _ => 0
  | .drainClaimCommit _ _ => 0
  | .preemption _ _ => 0
  | .frameStart => 0
  | .releaseTick _ => 0
  | .streamCheckPoint _ _ => 0
  | .streamTick _ _ => 0
  | .watchTrigger _ => 0
  | .ethFrameReceive _ _ _ => 0
  | .ptpMessage _ _ _ _ _ => 0
  | .streamEviction _ _ => 0
  | .streamRestore _ _ => 0
  | .pageInSwitch _ => 0
  | .evictionRetry _ => 0
  | .evictionSwitch _ => 0
  | .backgroundZeroing _ => 0
  | .spireErrorThreshold _ _ _ => 0
  | .spireLaneFail _ _ => 0
  | .sprqDecide _ _ => 0
  | .sprqSpare _ _ => 0
  | .sprqReroute _ _ => 0
  | .spireRetirement _ _ => 0
  | .bufferMigration _ _ => 0
  | .sensorSample _ _ _ => 0
  | .thermalStepTimer _ => 0
  | .thermalReleaseTimer _ => 0
  | .powerThrottleAdjust _ _ => 0
  | .softErrorAtRest _ _ => 0
  | .supervisorTrapEntry _ => 0
  | .heldTrapRetry _ => 0
  | .cfsynResume _ _ => 0
  | .cfsynSuspend _ _ => 0
  | .tfgoFill _ _ => 0
  | .tfgoFail _ _ => 0
  | .tkillTask _ _ => 0
  | .tkillContextTower _ _ => 0
  | .tkillContextPackage _ _ => 0
  | .sevw _ _ => 0
  | .svcr _ _ => 0
  | .otw _ _ => 0
  | .otwBusyClear _ => 0
  | .xinvPage _ _ => 0
  | .xinvContext _ _ => 0
  | .xinvAll _ _ => 0
  | .xinvDone => 0
  | .vbdEnable _ _ _ _ => 0
  | .vbdDisable _ _ _ _ => 0
  | .cfmWrite _ _ _ => 0
  | .budWrite _ _ _ => 0
  | .frmcfgWrite _ => 0
  | .tofsWrite _ => 0
  | .hcwWrite _ _ => 0
  | .registerWrite _ _ _ => 0
  | .hostPostedWrite _ _ _ => 0
  | .hostRead _ _ _ => 0
  | .hostAtomicRequest _ _ => 0
  | .platctlWrite _ => 0
  | .resumeWrite _ => 0
  | .controlWindowWrite _ _ => 0
  | .linkTraining _ _ _ => 0
  | .packageReset => 0
  | .pcieLinkTrain => 0
  | .aknelVerify _ _ => 0
  | .dramSpireTraining _ _ => 0
  | .malaskunStart _ _ => 0
  | .attestationRequest _ => 0
  | .accessPerformedAtHome _ _ _ => 0
  | .ptpMasterLost => 0

/-- The slot and the word of a syllable; none for a step that is no syllable. -/
def encode (i : Instr) : Option (Nat × Word) :=
  match i.slot with
  | some n => some (n, BitVec.ofNat 64 (i.opc * 2 ^ 56 + i.head.bits + i.bits))
  | none => none

/-- The template word of a bundle (R217). -/
def Bundle.template (b : Bundle) : Nat :=
  (b.syls.map (fun x => 2 ^ (20 + x.1))).sum + (if b.drain then 2 ^ 19 else 0) + (if b.stop then 2 ^ 18 else 0)

/-- The bytes of a bundle (R216). -/
def encodeBundle (b : Bundle) : List Byte := natBytes 4 b.template ++ b.syls.flatMap (fun x => natBytes 8 x.2.toNat)

/-- The bundle that holds one instruction. -/
def soloBundle (i : Instr) (stop : Bool) : Bundle :=
  match encode i with
  | some x => ⟨stop, false, [x]⟩
  | none => ⟨stop, false, []⟩

/-- The constructor that the decoder answers for the words of an instruction: rows that share an opcode share their words. -/
def Instr.form : Instr → Instr
  | .sqaccAssistComplete h f => .sqacc h f
  | .kvpoolDisable h f => .kvpoolEnable h f
  | .kvpoolPin h f => .kvpoolEnable h f
  | .kvpoolUnpin h f => .kvpoolEnable h f
  | .kvpoolSetent h f => .kvpoolEnable h f
  | .kvpoolAlloc h f => .kvpoolEnable h f
  | .kvpoolFree h f => .kvpoolEnable h f
  | .pfxinsAssistComplete h f => .pfxins h f
  | .stcfgDisable h f => .stcfgConfigure h f
  | .stcfgEvict h f => .stcfgConfigure h f
  | .stcfgRestore h f => .stcfgConfigure h f
  | i => i

end Sys2Proof
end

