-- ==== Sys2Proof/Machine/Ops.lean ====
section
/-!
DEFINITION. The shared operations over units, registers, memory, events and exceptions. Taking an exception (R369, R372) and
returning from one (R349) stand at the end.
-/
namespace Sys2Proof.Machine

/-! ### Units -/

/-- A core's state; one never touched is as at reset. -/
def getCore (s : State) (a : Agent) : CoreSt := mapGet (CoreSt.reset (coreKey a)) s.cores (coreKey a)

/-- Replace a core's state. -/
def setCore (s : State) (a : Agent) (x : CoreSt) : State := { s with cores := mapPut s.cores (coreKey a) x }

/-- Change a core's state. -/
def modCore (s : State) (a : Agent) (f : CoreSt → CoreSt) : State := setCore s a (f (getCore s a))

/-- A tower's state. -/
def getTower (s : State) (t : BitVec 3) : TowerSt := mapGet TowerSt.reset s.towers t.toNat

/-- Replace a tower's state. -/
def setTower (s : State) (t : BitVec 3) (x : TowerSt) : State := { s with towers := mapPut s.towers t.toNat x }

/-- Change a tower's state. -/
def modTower (s : State) (t : BitVec 3) (f : TowerSt → TowerSt) : State := setTower s t (f (getTower s t))

/-- The tower of an agent. -/
def agentTower : Agent → BitVec 3
  | .core t _ => t
  | .sup t => t

/-- Is the agent a supervisor core, which has the privileged view (R24)? -/
def isSup : Agent → Bool
  | .core _ _ => false
  | .sup _ => true

/-- The agent of a core number. -/
def keyAgent (k : Nat) : Agent :=
  if 512 ≤ k then .sup (BitVec.ofNat 3 (k - 512)) else .core (BitVec.ofNat 3 (k / 64)) (BitVec.ofNat 6 k)

/-- The registers of the agent whose bundle acts. -/
def curTask (s : State) : Task := (getCore s s.cur).task

/-- Change the registers of the agent whose bundle acts. -/
def modTask (s : State) (f : Task → Task) : State := modCore s s.cur (fun c => { c with task := f c.task })

/-- Change the registers of a core. -/
def modTaskOf (s : State) (a : Agent) (f : Task → Task) : State := modCore s a (fun c => { c with task := f c.task })

/-- The layer of a compute core: 0 draft, 1 check (R351). -/
def coreLayer (c : BitVec 6) : Nat := c.toNat / 32

/-- The cluster of a compute core. -/
def coreCluster (c : BitVec 6) : Nat := c.toNat / 4 % 8

/-- The column of a compute core. -/
def coreCol (c : BitVec 6) : Nat := c.toNat % 4

/-- The CSEL code of a core from layer, cluster and column (R351). -/
def coreCode (layer cluster col : Nat) : BitVec 6 := BitVec.ofNat 6 (32 * layer + 4 * cluster + col)

/-- The spire of a compute core's column (R3). -/
def coreSpire (c : BitVec 6) : Nat := 4 * coreCluster c + coreCol c

/-- The core a placed task stands on, found among the cores ever touched. -/
def findPlacedIn (num : BitVec 32) : FMap CoreSt → Option Nat
  | [] => none
  | (k, c) :: m => if c.live ∧ c.task.num = num ∧ k < 512 then some k else findPlacedIn num m

/-- The core that a PLACED task stands on. -/
def findPlaced (s : State) (num : BitVec 32) : Option Agent := (findPlacedIn num s.cores).map keyAgent

/-- A task by its number, wherever it stands: PLACED, READY or SUSPENDED. -/
def findTask (s : State) (num : BitVec 32) : Option Task :=
  match findPlaced s num with
  | some a => some (getCore s a).task
  | none => mapGet? s.tasks num.toNat

/-- Change a task by its number, wherever it stands. -/
def modTaskNum (s : State) (num : BitVec 32) (f : Task → Task) : State :=
  match findPlaced s num with
  | some a => modTaskOf s a f
  | none =>
    match mapGet? s.tasks num.toNat with
    | some t => { s with tasks := mapPut s.tasks num.toNat (f t) }
    | none => s

/-- Take a fresh free bit: an outcome the spec leaves between two (R8; DESIGN CHOICE, log 10). -/
def takeBit (s : State) : Bool × State := (Config.freeBit s.free, { s with free := s.free + 1 })

/-! ### Flat addresses: one number for every byte of every space (R10, R14, R53, R20) -/

/-- Flat address of a TM byte of a tower. -/
def tmFlat (t : Nat) (a : Nat) : Nat := 2 ^ 40 + t * 2 ^ 36 + a

/-- Flat address of a CXL byte. -/
def cxlFlat (a : Nat) : Nat := 2 ^ 44 + a

/-- Flat address of a host byte. -/
def hostFlat (a : Nat) : Nat := 2 ^ 53 + a

/-- Flat address, equally the GS address, of a scratchpad byte of a compute core (R14). -/
def lsFlat (t : BitVec 3) (c : BitVec 6) (off : Nat) : Nat := t.toNat * 2 ^ 29 + c.toNat * 2 ^ 22 + off

/-- Flat address, equally the GS address, of a pool byte of a tower (R14). -/
def poolFlat (t : BitVec 3) (off : Nat) : Nat := t.toNat * 2 ^ 29 + 2 ^ 28 + off

/-- Is a flat address a GS address? -/
def isGs (a : Nat) : Bool := decide (a < 2 ^ 32)

/-- Is a flat address in TM? -/
def isTm (a : Nat) : Bool := decide (2 ^ 40 ≤ a) && decide (a < 2 ^ 40 + 2 ^ 39)

/-- Is a flat address in CXL memory? -/
def isCxl (a : Nat) : Bool := decide (2 ^ 44 ≤ a) && decide (a < 2 ^ 53)

/-- The tower of a TM address. -/
def tmTower (a : Nat) : Nat := (a - 2 ^ 40) / 2 ^ 36

/-- The spire of a TM address (R53). -/
def tmSpire (a : Nat) : Nat := (a - 2 ^ 40) % 2 ^ 36 / 2 ^ 31

/-- Does a GS address decode (R15)? -/
def gsValid (a : Nat) : Bool :=
  decide (a < 2 ^ 32) && (if bit a 28 then decide (bits a 27 0 < 0x3000000) else decide (bits a 21 20 = 0))

/-- The end, exclusive, of the scratchpad or pool that holds a valid GS address (R12, R15). -/
def gsEnd (a : Nat) : Nat :=
  if bit a 28 then a / 2 ^ 28 * 2 ^ 28 + 0x3000000 else a / 2 ^ 20 * 2 ^ 20 + 2 ^ 20

/-- The pool shares of R16. -/
inductive Share where
  | stream
  | commands
  | caches
  | buffers
  deriving DecidableEq, Repr

/-- The share of a pool offset (R16). -/
def poolShare (off : Nat) : Share :=
  if off < 0x1800000 then .stream
  else if off < 0x2400000 then .commands
  else if off < 0x2800000 then .caches
  else if off < 0x2C00000 then .buffers
  else .commands

/-- Is a GS address in a pool? -/
def inPool (a : Nat) : Bool := isGs a && bit a 28

/-- The home unit of a flat address for queue order (R94): a scratchpad, the pool banks at one cluster stop, a spire's
channel; none for CXL and host. -/
def homeUnit (a : Nat) : Option Nat :=
  if isGs a then
    if bit a 28 then some (2 ^ 20 + bits a 31 29 * 8 + bits a 8 6) else some (a / 2 ^ 22)
  else if isTm a then some (2 ^ 21 + tmTower a * 32 + tmSpire a)
  else none

/-- Is a TM address homed on the agent's own spire (R54)? -/
def ownSpire (who : Agent) (a : Nat) : Bool :=
  match who with
  | .core t c => isTm a && decide (tmTower a = t.toNat) && decide (tmSpire a = coreSpire c)
  | .sup _ => false

/-- Does a home lie in the scope of an agent (R99)? On a supervisor core codes 0 and 1 mean TOWER. -/
def inScope (scope : Nat) (who : Agent) (a : Nat) : Bool :=
  let t := (agentTower who).toNat
  let tower := (isGs a && decide (a / 2 ^ 29 = t)) || (isTm a && decide (tmTower a = t))
  match who, scope with
  | .core _ c, 0 => (isGs a && decide (a / 2 ^ 22 = t * 128 + c.toNat)) || ownSpire who a
  | .core _ c, 1 =>
    (isGs a && !bit a 28 && decide (a / 2 ^ 29 = t) && decide (bits a 26 24 = coreCluster c)) ||
      (isTm a && decide (tmTower a = t) && decide (tmSpire a / 4 = coreCluster c))
  | .sup _, 0 => tower
  | .sup _, 1 => tower
  | _, 2 => tower
  | _, 3 => isGs a || isTm a
  | _, _ => true

/-! ### Memory at the homes -/

/-- The byte of the instruction-cache share at a GS address: the contents of that core's cache, in a layout that the spec does
not give (R16; DESIGN CHOICE, log 13). -/
def cacheShare (s : State) (a : Nat) : Byte :=
  let off := bits a 27 0 - 0x2400000
  let k := getCore s (.core (BitVec.ofNat 3 (a / 2 ^ 29)) (BitVec.ofNat 6 (off / 2 ^ 16)))
  Config.cacheByte (k.ic.map (fun l => (l.ctx, l.line, l.bytes))) (off % 2 ^ 16)

/-- An integer as a natural number, for what a region holds. -/
def intNat (x : Int) : Nat :=
  match x with
  | .ofNat n => 2 * n
  | .negSucc n => 2 * n + 1

/-- What a result that is due holds, as numbers: a kind, a register and its value. -/
def destNats (d : Dest) : List Nat :=
  match d with
  | .scalar r x => [0, r, x.toNat]
  | .vector r x => [1, r.getD 1024, x.toNat]
  | .pred r x => [2, r, x.toNat]
  | .flag r x => [3, r, x.toNat]
  | .target r x => [4, r, x.toNat]
  | .base r x => [5, r, x.toNat]
  | .handle r x => [6, r, x.bits.toNat, x.pa.toNat]
  | .record r x => [7, r, x.bits.toNat]
  | .gaIndex x => 8 :: x.recd :: x.offs
  | .gaData x => 9 :: x.a.map intNat ++ x.ea.map intNat

/-- What a snapshot or shadow buffer holds: the results still due with their offsets, and the pending transfer (R372, R374). -/
def bufferNats (k : Task) : List Nat :=
  k.due.flatMap (fun d => [d.due, d.born, d.slot, d.flags.toNat] ++ destNats d.dst) ++
    (match k.pend with
     | some p => [1, p.target.toNat, p.left, p.drain.toNat]
     | none => [0])

/-- The results that stand in a core's snapshot or shadow buffer: those that were due at the task's last freeze or save and have not
been written since (R372, R374, R377). -/
def shadowDue (k : Task) : List Due := k.due.filter (fun d => decide (d.born < k.snap) && decide (k.issued < d.due))

/-- Does a core's snapshot or shadow buffer hold anything? -/
def bufferFull (c : CoreSt) : Bool := c.live && (!(shadowDue c.task).isEmpty || (c.frozen && c.task.pend.isSome))

/-- A byte at its home. -/
def readByte (s : State) (a : Nat) : Byte :=
  if inPool a ∧ poolShare (bits a 27 0) = .caches then cacheShare s a else cellGet s.mem a

/-- Bytes from a flat address upwards. -/
def readBytes (s : State) (a : Nat) : Nat → List Byte
  | 0 => []
  | n + 1 => readByte s a :: readBytes s (a + 1) n

/-- A little-endian number of `n` bytes in memory. -/
def readNat (s : State) (a n : Nat) : Nat := leNat (readBytes s a n)

/-- The bits that a table gives a byte of its record; a byte it does not list has all of them. -/
def keptIn (l : List (Nat × Byte)) (i : Nat) : Byte := ((l.find? (fun p => decide (p.1 = i))).map (·.2)).getD 0xFF#8

/-- The bits of a request record's bytes that are no reserved field (R116, R164). -/
def reqKept (i : Nat) : Byte :=
  if 0x30 ≤ i ∧ i < 0x40 then 0
  else keptIn [(0, 0), (1, 0), (2, 0xE0), (0x14, 0xC0), (0x18, 0), (0x19, 0), (0x24, 0), (0x26, 0xFC)] i

/-- The bits of a stream-table entry's bytes that are no reserved field (R133, R184). -/
def streamKept (i : Nat) : Byte :=
  if 0x58 ≤ i ∨ (0x2A ≤ i ∧ i < 0x30) ∨ (0x53 ≤ i ∧ i < 0x56) then 0
  else keptIn [(1, 0x03), (0x39, 0x0F), (0x3A, 0), (0x3B, 0), (0x4A, 0), (0x4B, 0xF0)] i

/-- The bits of a prefix entry's bytes that are no reserved field (R126). -/
def prefixKept (i : Nat) : Byte :=
  if (0x21 ≤ i ∧ i < 0x40) then 0 else keptIn [(8, 0), (9, 0), (0xA, 0xFE), (0x10, 0xF8), (0x20, 0x3F)] i

/-- The bits of a partition descriptor's bytes that are no reserved field (R125). -/
def partKept (i : Nat) : Byte := keptIn [(2, 0), (3, 0), (4, 0xF8)] i

/-- The bits of a watch entry's bytes that are no field the device itself keeps reserved (R188); the other reserved fields
are checked at the install (R189). -/
def watchKept (i : Nat) : Byte := if 0x38 ≤ i then 0 else keptIn [(0x2E, 0), (0x2F, 0xF0)] i

/-- The bits of a byte that a write changes. Writes to the cache share and to the unused part of the prefix share are ignored
(R16, R124), and so is a write to a reserved field of a pool record for which no table names another fate (R7; DEDUCED, log 126). -/
def keptBits (a : Nat) : Byte :=
  if inPool a then
    let off := bits a 27 0
    if off < 0x1800000 then 0xFF
    else if off < 0x1A00000 then reqKept (off % 0x400)
    else if off < 0x1FC0000 then 0xFF
    else if off < 0x1FD8000 then streamKept (off % 0x80)
    else if off < 0x2000000 then 0xFF
    else if off < 0x2100000 then prefixKept (off % 0x80)
    else if off < 0x2108000 then 0xFF
    else if off < 0x2108800 then partKept (off % 16)
    else if off < 0x2400000 ∨ poolShare off = .caches then 0
    else if 0x2C80000 ≤ off ∧ off < 0x2CC0000 then watchKept (off % 0x40)
    else 0xFF
  else 0xFF

/-- Does a write to this byte take effect as a whole? -/
def writable (a : Nat) : Bool := decide (keptBits a = 0xFF)

/-- Write one byte at its home: the bits that take effect, the others as zero. -/
def writeByte (s : State) (a : Nat) (b : Byte) : State :=
  if keptBits a = 0 then s else { s with mem := cellSet s.mem a (b &&& keptBits a) }

/-- Write bytes at their homes. -/
def writeBytes : State → Nat → List Byte → State
  | s, _, [] => s
  | s, a, b :: bs => writeBytes (writeByte s a b) (a + 1) bs

/-- Write a little-endian number of `n` bytes. -/
def writeNat (s : State) (a n x : Nat) : State := writeBytes s a (leBytes n x)

/-- Is some byte of a range page-tracked and pending, so that a store to it stalls (R26)? -/
def pageHeld (s : State) (a n : Nat) : Bool :=
  s.zero.any (fun z => z.page && decide (a < z.base + z.len) && decide (z.base < a + n))

/-- Is some byte of a range pending zero? -/
def zeroPending (s : State) (a n : Nat) : Bool :=
  s.zero.any (fun z => decide (a < z.base + z.len) && decide (z.base < a + n))

/-- Remove the units that `[a, a + n)` touches from the pending ranges: the parts below and above remain. -/
def clearPending (z : List ZRange) (a n : Nat) : List ZRange :=
  z.flatMap (fun r =>
    if a < r.base + r.len ∧ r.base < a + n then
      (if r.base < a then [{ r with len := a - r.base }] else []) ++
      (if a + n < r.base + r.len then [{ r with base := a + n, len := r.base + r.len - (a + n) }] else [])
    else [r])

/-- A store clears the pending bit of each 64-byte line it touches, which already reads zero (R26). -/
def storePending (s : State) (a n : Nat) : State :=
  if zeroPending s a n ∧ !pageHeld s a n then
    { s with zero := clearPending s.zero (a / 64 * 64) (ceilDiv (a % 64 + n) 64 * 64) }
  else s

/-- The number of bytes that `[a, a + n)` shares with a range. -/
def meetLen (a n base len : Nat) : Nat := min (a + n) (base + len) - max a base

/-- Was a context the last owner of every byte of an object (R25)? -/
def lastOwned (s : State) (base len : Nat) (ctx : BitVec 12) : Bool :=
  decide (((s.owner.filter (fun o => o.ctx = ctx)).map (fun o => meetLen base len o.base o.len)).sum = len)

/-- Every last owner of a range is the context given: the parts of other ranges outside it remain. -/
def ownRange (l : List ORange) (base len : Nat) (ctx : BitVec 12) : List ORange :=
  ⟨base, len, ctx⟩ :: l.flatMap (fun o =>
    if base < o.base + o.len ∧ o.base < base + len then
      (if o.base < base then [{ o with len := base - o.base }] else []) ++
      (if base + len < o.base + o.len then [{ o with base := base + len, len := o.base + o.len - (base + len) }] else [])
    else [o])

/-- Allocate an object's bytes to a context: zeroed as a whole and left pending when its last owner differs (R25, R26). The bytes
read zero from here on; the pending mark holds back stores to a page. -/
def allocZero (s : State) (base len : Nat) (page : Bool) (ctx : BitVec 12) : State :=
  if lastOwned s base len ctx then s
  else
    { s with
      mem := cellsClear s.mem base len
      zero := { base := base, len := len, page := page } :: clearPending s.zero base len
      owner := ownRange s.owner base len ctx
      bad := s.bad.filter (fun g => decide (g * 8 + 8 ≤ base) || decide (base + len ≤ g * 8)) }

/-- Give an object to a context without zeroing: the freeing of an object to context 0 (R136, R67). -/
def giveTo (s : State) (base len : Nat) (ctx : BitVec 12) : State := { s with owner := ownRange s.owner base len ctx }

/-! ### Structures in the pools -/

/-- A field of a 64-bit word at a flat address. -/
def getField (s : State) (a hi lo : Nat) : Nat := bits (readNat s a 8) hi lo

/-- Replace a field of a 64-bit word at a flat address. -/
def putField (s : State) (a hi lo v : Nat) : State := writeNat s a 8 (setBits (readNat s a 8) hi lo v)

/-- A request record (R113). -/
def reqAdr (t : BitVec 3) (n : Nat) : Nat := poolFlat t (0x1800000 + n * 0x400)
/-- A page-table block (R113). -/
def blockAdr (t : BitVec 3) (n : Nat) : Nat := poolFlat t (0x1A00000 + n * 0x200)
/-- A stream-table entry (R113). -/
def streamAdr (t : BitVec 3) (n : Nat) : Nat := poolFlat t (0x1FC0000 + n * 0x80)
/-- A stream-context slot (R16). -/
def slotAdr (t : BitVec 3) (n : Nat) : Nat := poolFlat t (n * 0x8000)
/-- A KV pool record (R113). -/
def poolAdr (t : BitVec 3) (n : Nat) : Nat := poolFlat t (0x1FD8000 + n * 0x40)
/-- A prefix entry (R124). -/
def pfxAdr (t : BitVec 3) (n : Nat) : Nat := poolFlat t (0x2000000 + n * 0x80)
/-- A bucket head (R124). -/
def bucketAdr (t : BitVec 3) (n : Nat) : Nat := poolFlat t (0x2100000 + n * 4)
/-- A partition descriptor (R124). -/
def partAdr (t : BitVec 3) (n : Nat) : Nat := poolFlat t (0x2108000 + n * 16)
/-- A timetable entry (R181). -/
def ttAdr (t : BitVec 3) (n : Nat) : Nat := poolFlat t (0x2C00000 + n * 0x20)
/-- A watch entry (R181). -/
def watchAdr (t : BitVec 3) (n : Nat) : Nat := poolFlat t (0x2C80000 + n * 0x40)

/-- The entries of a pool table whose top bit of the word at offset `off` is 1, in ascending order: `base` is the table's
flat address, `size` an entry's bytes, `num` their number. Only listed cells can hold a 1. -/
def setEntries (s : State) (base size off num : Nat) : List Nat :=
  s.mem.filterMap (fun c =>
    if base ≤ c.1 ∧ c.1 < base + size * num ∧ (c.1 - base) % size = off + 7 ∧ 128 ≤ c.2.toNat then
      some ((c.1 - base) / size)
    else none)

/-- The watch entries of a tower with EN = 1 (R188). -/
def watchesOn (s : State) (t : BitVec 3) : List Nat := setEntries s (watchAdr t 0) 0x40 0 4096
/-- The armed timetable entries of a tower (R182). -/
def ttArmed (s : State) (t : BitVec 3) : List Nat := setEntries s (ttAdr t 0) 0x20 24 16384
/-- The configured streams of a tower, by the slot of their table entry (R133). -/
def streamsOn (s : State) (t : BitVec 3) : List Nat := setEntries s (streamAdr t 0) 0x80 0 768
/-- The open requests of a tower (R116). -/
def reqsOn (s : State) (t : BitVec 3) : List Nat := setEntries s (reqAdr t 0) 0x400 0 2048

/-- The flat base of a watch entry's range (R188). -/
def watchBase (s : State) (t : BitVec 3) (e : Nat) : Nat :=
  let b := readNat s (watchAdr t e + 8) 8
  if getField s (watchAdr t e) 57 56 = 1 then tmFlat t.toNat (b % 2 ^ 36) else b % 2 ^ 32

/-- The length of a watch entry's range. -/
def watchLen (s : State) (t : BitVec 3) (e : Nat) : Nat := getField s (watchAdr t e + 16) 21 0

/-- The stream state of a table entry (R133): 0 ACTIVE, 1 EVICTING, 2 EVICTED, 3 RESTORING. -/
def streamState (s : State) (t : BitVec 3) (n : Nat) : Nat := getField s (streamAdr t n) 62 60

/-- Does a watch entry test nothing because its stream is EVICTING, or has left its slot: a restored stream's entries test again when
the ingress of its held frames begins (R194)? An entry installed over a slot that no stream holds is no stream's, as over the window
of R195. -/
def watchDead (s : State) (t : BitVec 3) (e : Nat) : Bool :=
  let b := watchBase s t e
  (getTower s t).away.any (fun x => decide (x.1 = e)) ||
    (decide (isGs b) && decide (b / 2 ^ 28 = 2 * t.toNat + 1) && decide (bits b 27 0 < 0x1800000) &&
      (let n := bits b 27 0 / 0x8000
       bit (readNat s (streamAdr t n) 8) 63 && decide (streamState s t n = 1)))

/-- The first byte, if any, that a write of `new` over `old` at `a` changes inside `[lo, hi)`. -/
def firstChange (a lo hi : Nat) : List Byte → List Byte → Option Nat
  | o :: os, n :: ns => if lo ≤ a ∧ a < hi ∧ o ≠ n then some a else firstChange (a + 1) lo hi os ns
  | _, _ => none

/-- The watch entries of one tower, with the tower's number, that a write of `new` over `old` changes inside their range (R190). -/
def hitsOf (s : State) (a : Nat) (old new : List Byte) (t : BitVec 3) : List (Nat × Nat) :=
  (watchesOn s t).filterMap (fun e =>
    let b := watchBase s t e
    if watchDead s t e then none
    else if (firstChange a b (b + watchLen s t e) old new).isSome then some (t.toNat, e) else none)

/-- One write event at its home (R26, R190): the bytes, the pending lines, the granules it makes whole again, and the watch
entries in whose range it changes a byte. -/
def storeNote (s : State) (a : Nat) (bs : List Byte) : State × List (Nat × Nat) :=
  let old := readBytes s a bs.length
  let s1 := writeBytes (storePending s a bs.length) a bs
  let hits := if old = bs then [] else ([0, 1, 2, 3, 4, 5, 6, 7] : List (BitVec 3)).flatMap (hitsOf s1 a old bs)
  ({ s1 with bad := s1.bad.filter (fun g => !(decide (a ≤ g * 8) && decide (g * 8 + 8 ≤ a + bs.length))) }, hits)

/-- The first byte of a write, given by its ranges, that lies inside `[b, b + n)`. -/
def firstInside (b n : Nat) (ranges : List (Nat × Nat)) : Nat :=
  ranges.foldl (fun m r => if r.1 < b + n ∧ b < r.1 + r.2 then min m (max r.1 b) else m) (b + n)

/-- The triggers that a performed triggering write, given by its ranges, sends to the watch units (R190, R191). -/
def sendTrigs (s : State) (ranges : List (Nat × Nat)) (hits : List (Nat × Nat)) : State :=
  hits.foldl (fun s h =>
    let t := BitVec.ofNat 3 h.1
    modTower s t (fun w =>
      { w with
        trigs := w.trigs ++
          [{ entry := h.2, first := firstInside (watchBase s t h.2) (watchLen s t h.2) ranges
             start := (ranges.headD (0, 0)).1 }] })) s

/-- Union of two lists of hits. -/
def addHits (x y : List (Nat × Nat)) : List (Nat × Nat) := x ++ y.filter (fun h => !x.contains h)

/-- The pieces that remain of a triggering write whose ranges are given, of which earlier pieces made the hits `hits` (R190). -/
def storeRest (s : State) (ps : List (Nat × List Byte)) (ranges : List (Nat × Nat)) (hits : List (Nat × Nat)) : State :=
  let r := ps.foldl (fun x p =>
    let y := storeNote x.1 p.1 p.2
    (y.1, addHits x.2 y.2)) (s, hits)
  sendTrigs r.1 ranges r.2

/-- One triggering write made of several pieces, performed together (R190). -/
def storeAll (s : State) (ps : List (Nat × List Byte)) : State := storeRest s ps (ps.map (fun p => (p.1, p.2.length))) []

/-- A triggering write of one run of bytes. -/
def storeTrig (s : State) (a : Nat) (bs : List Byte) : State := storeAll s [(a, bs)]

/-- A write by the device itself, which triggers nothing (R190). -/
def storeQuiet (s : State) (a : Nat) (bs : List Byte) : State :=
  let s1 := writeBytes (storePending s a bs.length) a bs
  { s1 with bad := s1.bad.filter (fun g => !(decide (a ≤ g * 8) && decide (g * 8 + 8 ≤ a + bs.length))) }

/-- How many bytes of its 64 KiB a core's snapshot or shadow buffer takes: 2 KiB and 16 B of tags for a vector result, 16 B for any
other and for a pending transfer (R374). -/
def bufferSize (k : Task) : Nat :=
  min 0x10000 ((k.due.map (fun d =>
    match d.dst with
    | .vector _ _ => 2064
    | _ => 16)).foldl (· + ·) (if k.pend.isSome then 16 else 0))

/-- Move what is due into the core's share of the pool, in a layout that the spec does not give (R16, R372, R374;
DESIGN CHOICE, log 41). -/
def latchBuffer (s : State) (t : BitVec 3) (c : BitVec 6) (k : Task) : State :=
  storeQuiet s (poolFlat t (0x2800000 + c.toNat * 0x10000)) ((List.range (bufferSize k)).map (Config.slotByte 0x4000 (bufferNats k)))

/-- Does a flat address lie on an unreachable channel (R65)? -/
def lostAt (s : State) (a : Nat) : Bool :=
  isTm a && (getTower s (BitVec.ofNat 3 (tmTower a))).lostSpires.getLsbD (tmSpire a)

/-- Does a range hold a granule with an uncorrectable error (R378), or lie on an unreachable channel (R65)? -/
def badRange (s : State) (a n : Nat) : Bool :=
  s.bad.any (fun g => decide (a < g * 8 + 8) && decide (g * 8 < a + n)) ||
    (isTm a && (getTower s (BitVec.ofNat 3 (tmTower a))).lostSpires.getLsbD (tmSpire a))

/-! ### Events and the status log (R369, R370, R384) -/

/-- The code of a fault (R367). -/
def FCode.num : FCode → Nat
  | .illegalBundle => 0x01
  | .illegalOpcode => 0x02
  | .illegalOperand => 0x03
  | .featureAbsent => 0x04
  | .priv => 0x05
  | .groupOverlong => 0x06
  | .fetch => 0x07
  | .noncanonical => 0x08
  | .translation => 0x09
  | .handleStale => 0x0A
  | .rights => 0x0B
  | .bounds => 0x0C
  | .misaligned => 0x0D
  | .versionLost => 0x0E
  | .tileInvalid => 0x0F
  | .softwareTrap => 0x10
  | .uncorrected => 0x11
  | .budget => 0x20
  | .translationAssist => 0x21
  | .watchRunaway => 0x22
  | .thermal => 0x23

/-- The class of a fault (R367); PRIV is class 1 where it is found at decode. -/
def FCode.cls : FCode → Nat
  | .illegalBundle => 1
  | .illegalOpcode => 1
  | .illegalOperand => 1
  | .featureAbsent => 1
  | .priv => 1
  | .groupOverlong => 1
  | .fetch => 2
  | .noncanonical => 2
  | .translation => 2
  | .handleStale => 2
  | .rights => 2
  | .bounds => 2
  | .misaligned => 2
  | .versionLost => 3
  | .tileInvalid => 3
  | .softwareTrap => 3
  | .uncorrected => 4
  | .budget => 5
  | .translationAssist => 5
  | .watchRunaway => 5
  | .thermal => 5

/-- FSYN from its fields (R365). -/
def fsynOf (frozen : Bool) (cls code detail : Nat) : Word :=
  word ((if frozen then 2 ^ 61 else 0) + cls * 2 ^ 52 + code * 2 ^ 32 + detail % 2 ^ 16 * 2 ^ 16)

/-- FSLT from its fields (R366). -/
def fsltOf (core slot : Nat) : Word := word (core * 256 + slot)

/-- The class and code of an entry. -/
def evClass (e : EvEntry) : Nat := bits e.fsyn.toNat 55 52
/-- The code of an entry. -/
def evCode (e : EvEntry) : Nat := bits e.fsyn.toNat 47 32

/-- Traps of class 5 in the queue. -/
def trapCount (q : List EvEntry) : Nat := (q.filter (fun e => decide (evClass e = 5))).length
/-- FAULT notices in the queue. -/
def noticeCount (q : List EvEntry) : Nat := (q.filter (fun e => decide (evCode e = 0x41))).length

/-- Are all general places of the queue taken (R369)? 256 places less 64 for notices and 4 for traps. -/
def generalFull (q : List EvEntry) : Bool :=
  decide (188 ≤ q.length - noticeCount q - trapCount q + (trapCount q - 4))

/-- Put a trap behind the traps at the head of the queue (R369). -/
def insertTrap (e : EvEntry) : List EvEntry → List EvEntry
  | [] => [e]
  | x :: q => if evClass x = 5 then x :: insertTrap e q else e :: x :: q

/-- Write the status log and send the tower's MSI-X vector, when an entry is raised (R384). -/
def logEntry (s : State) (t : BitVec 3) (e : EvEntry) : State :=
  let s1 := modTower s t (fun w =>
    { w with log := mapPut w.log (w.wridx.toNat % 4096) e, wridx := w.wridx + 1 })
  { s1 with pkg := { s1.pkg with msix := s1.pkg.msix ||| (1#16 <<< t.toNat) } }

/-- Could a WFE of the supervisor core issue before the events of the present cycle (R263)? -/
def supReady (cyc : Word) (w : TowerSt) : Bool :=
  match w.sup.evLast with
  | some (c, b) => if c = cyc then b else w.sup.evBit || !w.evq.isEmpty
  | none => w.sup.evBit || !w.evq.isEmpty

/-- An event reaches the supervisor core: its event bit is set, and it is kept whether WFE could issue without it (R147, R263). -/
def supEvent (cyc : Word) (w : TowerSt) : TowerSt :=
  { w with sup := { w.sup with evBit := true, evLast := some (cyc, supReady cyc w) } }

/-- WFE takes the event bit: a new event of the same cycle keeps it set, where WFE could issue without that event (R147, R263). -/
def clearSupEvent (cyc : Word) (w : TowerSt) : TowerSt :=
  { w with sup := { w.sup with evBit := decide (w.sup.evLast = some (cyc, true)), evLast := none } }

/-- Offer an entry to the event queue: notices and traps are never dropped, a trap without a place is held, another entry
without a place is dropped and sets OVF; an entry that enters sets the event bit (R369, R263). -/
def enqueue (cyc : Word) (w : TowerSt) (e : EvEntry) : TowerSt × Bool :=
  let enter := fun (q : List EvEntry) => ({ supEvent cyc w with evq := q }, false)
  if evClass e = 5 then
    if trapCount w.evq < 4 ∨ !generalFull w.evq then enter (insertTrap e w.evq)
    else ({ w with heldTraps := w.heldTraps ++ [e] }, false)
  else if evCode e = 0x41 then enter (w.evq ++ [e])
  else if generalFull w.evq then (w, true)
  else enter (w.evq ++ [e])

/-- Post an entry to a tower's supervisor core (R369, R384); a tower held in reset takes none (R394; DEDUCED, log 74). -/
def postEntry (s : State) (t : BitVec 3) (e : EvEntry) : State :=
  if (getTower s t).inReset then s else
  let s1 := logEntry s t e
  let r := enqueue s.pkg.cyc (getTower s1 t) e
  let s2 := setTower s1 t r.1
  if r.2 then modCore s2 (.sup t) (fun c => { c with fsyn := c.fsyn ||| (1#64 <<< 60) }) else s2

/-- Post an event of class 6 (R370). -/
def postEvent (s : State) (t : BitVec 3) (code : Nat) (fadr fbnd : Word) (detail core : Nat) : State :=
  postEntry s t { fsyn := fsynOf false 6 code detail, fadr := fadr, fbnd := fbnd, fslt := fsltOf core 0xFF }

/-- Post a trap of class 5 (R367). -/
def postTrap (s : State) (t : BitVec 3) (code : FCode) (fadr fbnd : Word) (detail : Nat) : State :=
  postEntry s t { fsyn := fsynOf false 5 code.num detail, fadr := fadr, fbnd := fbnd, fslt := fsltOf 0xFF 0xFF }

/-! ### Misses of translation caches and instruction caches (R89) -/

/-- The 64 KiB region of an address. -/
def regionOf (va : Word) : BitVec 36 := va.extractLsb' 16 36

/-- The logic die whose walkers serve an agent: its own, and the check die for the supervisor core (R89). -/
def walkLayer : Agent → BitVec 1
  | .core _ c => BitVec.ofNat 1 (coreLayer c)
  | .sup _ => 1

/-- Is a walk one of an agent's die for an address of a context? -/
def walkFor (a : Agent) (ctx : BitVec 12) (va : Word) (w : Walk) : Bool :=
  decide (w.tower = agentTower a) && decide (w.layer = walkLayer a) && decide (w.ctx = ctx) && decide (w.region = regionOf va)

/-- The walks of a die that wait for a walker. -/
def walksQueued (s : State) (t : BitVec 3) (layer : BitVec 1) : List Walk :=
  s.walks.filter (fun w => decide (w.tower = t) && decide (w.layer = layer) && !w.running && w.done.isNone)

/-- A core's miss joins a walk of its die for the same region, or is queued there; while the queue is full it waits outside
(R89). -/
def askWalk (s : State) (a : Agent) (ctx : BitVec 12) (va : Word) (fetch : Bool) : State :=
  if s.walks.any (fun w => walkFor a ctx va w && w.done.isNone) then
    { s with
      walks := s.walks.map (fun w =>
        if walkFor a ctx va w && w.done.isNone then { w with who := a :: w.who.filter (fun b => b ≠ a), fetch := w.fetch || fetch } else w) }
  else if 512 ≤ (walksQueued s (agentTower a) (walkLayer a)).length then s
  else
    { s with
      walks := s.walks ++
        [{ id := s.nextId, tower := agentTower a, layer := walkLayer a, ctx := ctx, region := regionOf va, fetch := fetch,
           who := [a], running := false, level := 0, table := 0, done := none, met := [] }]
      nextId := s.nextId + 1 }

/-- An agent has learnt how the walks that it waited for failed, or no longer waits for any: one that has not ended goes on without
it, and one that has ended and that nobody waits for is gone. -/
def dropWalks (s : State) (a : Agent) : State :=
  { s with
    walks := (s.walks.map (fun w => { w with who := w.who.filter (fun b => b ≠ a) })).filter (fun w => w.done.isNone || !w.who.isEmpty) }

/-- The context whose tables a core's fetch uses: that of its task; 0 for a supervisor core. -/
def fetchCtx (s : State) (a : Agent) : BitVec 12 := if isSup a then 0 else (getCore s a).task.ctx

/-! ### Taking an exception and returning from one -/

/-- A wait that another unit knows of: an MACC at its slice (R38), a WAITC at its token (R285), a VOPEN or VHOLD at its buffer
(R45), an MACC at its beat rate (R60, R61), an MFSR of FPS for the results of its task (R212), a GBAR for its episode (R342), an
XLATE at the walk for an address (R86), a transfer or loop at the walk for the code that follows it (R89). -/
inductive WaitMark where
  | slice
  | token (r : Nat)
  | version (name : Word) (home : Agent) (buf : Nat) (hold : Bool) (v : BitVec 32)
  | beat
  | results
  | barrier (mask scope : Nat)
  | walk (va : Word)
  | link (va : Word)
  deriving DecidableEq, Repr

/-- The answer of a syllable's action: done, a fault of its bundle, a stall that leaves the bundle unissued, or such a stall
that leaves a mark. -/
inductive Act where
  | done (s : State)
  | trap (f : FaultInfo)
  | stall
  | wait (w : WaitMark)
  deriving DecidableEq, Repr

/-- A fault with its table class, address and slot. -/
def mkFault (c : FCode) (adr : Word) (slot : Nat) (detail : Nat := 0) : FaultInfo :=
  { code := c, cls := BitVec.ofNat 4 c.cls, adr := adr, detail := BitVec.ofNat 16 detail, slot := BitVec.ofNat 8 slot,
    tile := none }

/-- The supervisor core stops issuing, as HALT does (R349, R369). -/
def haltSup (s : State) (t : BitVec 3) : State := modTower s t (fun w => { w with sup := { w.sup with halted := true } })

/-- The slot number of a compute core's syndrome: a trap has none. -/
def faultSlot (f : FaultInfo) : Nat := if f.cls = 5 then 0xFF else f.slot.toNat

/-- What a freeze makes of its core (R365, R372). -/
def frozenCore (core : CoreSt) (f : FaultInfo) : CoreSt :=
  { core with
    frozen := true, masked := false, task := { core.task with snap := core.task.issued }
    fsyn := fsynOf true f.cls.toNat f.code.num f.detail.toNat, fadr := f.adr, fbnd := core.task.pc, fslt := fsltOf 0xFF (faultSlot f) }

/-- A compute core freezes on a fault or trap (R365, R366, R372): its syndrome is written, its task stops at the faulting
bundle with every due result latched in its buffer, a trap of class 5 and a FAULT notice are posted. -/
def freeze (s : State) (t : BitVec 3) (c : BitVec 6) (f : FaultInfo) : State :=
  let core := getCore s (.core t c)
  let s1 := setCore (latchBuffer s t c core.task) (.core t c) (frozenCore core f)
  let s2 := if f.cls = 5 then postTrap s1 t f.code f.adr core.task.pc f.detail.toNat else s1
  postEvent s2 t 0x41 (frozenCore core f).fsyn (core.task.num.setWidth 64) 0 c.toNat

/-- The supervisor core enters its trap: the pc is saved, IE moves to PIE and clears, the syndrome is the entry's, and
issue goes on at STVEC with a new issue group (R369) (DEDUCED, log 86). -/
def enterTrap (s : State) (t : BitVec 3) (e : EvEntry) : State :=
  let s1 := modTower s t (fun w =>
    { w with sup :=
        { w.sup with
          sepc := (getCore s (.sup t)).task.pc
          sstat := if w.sup.sstat.getLsbD 0 then 2 else 0 } })
  modCore s1 (.sup t) (fun c =>
    { c with
      fsyn := (c.fsyn &&& (1#64 <<< 60)) ||| e.fsyn, fadr := e.fadr, fbnd := e.fbnd, fslt := e.fslt
      task := { c.task with pc := (getTower s t).sup.stvec, group := 0, pend := none, rings := Rings.empty } })

/-- What a fault leaves of its bundle: a wait for a token is over, and the tile of a failing MACC is invalid (R315, R318). -/
def endWaits (s : State) (a : Agent) (z : Option Nat) : State :=
  modTaskOf s a (fun t =>
    { t with
      waitTok := none, tokFail := [], verWait := t.verWait.filter (fun w => w.res.lives)
      arr := match z with
        | some n => { t.arr with valid := setAt t.arr.valid n false }
        | none => t.arr })

/-- Taking an exception: a compute core freezes (R372); a supervisor core enters its trap at once with SEPC at the faulting
bundle, or halts while IE = 0 (R369). A free value that the fault's syndrome took is spent (DESIGN CHOICE, log 9) (DEDUCED,
log 78). -/
def takeFault (s0 : State) (a : Agent) (f : FaultInfo) : State :=
  let s := dropWalks (endWaits { s0 with free := s0.free + 1 } a f.tile) a
  match a with
  | .core t c => freeze s t c f
  | .sup t =>
    if (getTower s t).sup.sstat.getLsbD 0 then
      enterTrap s t
        { fsyn := fsynOf false f.cls.toNat f.code.num f.detail.toNat, fadr := f.adr, fbnd := (getCore s a).task.pc,
          fslt := fsltOf 0xFF f.slot.toNat }
    else haltSup s t

/-- The return from a trap: the pc from SEPC, IE from PIE (R349). -/
def returnTrap (s : State) (t : BitVec 3) : State :=
  let w := getTower s t
  let s1 := modTower s t (fun w =>
    { w with sup := { w.sup with sstat := (w.sup.sstat &&& 2#64) ||| (if w.sup.sstat.getLsbD 1 then 1 else 0) } })
  modTaskOf s1 (.sup t) (fun k => { k with pc := w.sup.sepc })

/-- The other core of a column. -/
def partner (c : BitVec 6) : BitVec 6 := c ^^^ 32

/-- A core that begins to ask in the middle of a window, its first MACC having arrived: half rate where its partner holds a
full-rate grant, and no priority for the next window (R61). -/
def beginAsking (s : State) (t : BitVec 3) (c : BitVec 6) : State :=
  let core := getCore s (.core t c)
  if core.asking then s
  else
    let other := getCore s (.core t (partner c))
    setCore s (.core t c)
      { core with asking := true, lost := false, rate := if other.asking ∧ other.rate = .full then .half else .full }

/-- The same of an agent; a supervisor core asks for nothing. -/
def beginAskingAt (s : State) : Agent → State
  | .core t c => beginAsking s t c
  | .sup _ => s

/-- The acting task's core, attached to a bus group, has an MACC waiting to issue (R60, R61). -/
def markMaccWait (s : State) : State :=
  if s.buses.any (fun g => g.members.any (fun m => decide (m.num = (curTask s).num))) then
    modCore (beginAskingAt s s.cur) s.cur (fun c => { c with masked := true })
  else s

/-- The acting task's MACC waits for its slice: its bus group and its core know it (R38, R60). -/
def markWaiting (s : State) : State :=
  let num := (curTask s).num
  markMaccWait { s with
    buses := s.buses.map (fun g =>
      { g with members := g.members.map (fun m => if m.num = num then { m with waits := true } else m) }) }

/-- The barrier mask of an episode names a member (R342). -/
def maskNames (mask m : Nat) : Bool := decide (mask = 0) || bit mask m

/-- End the open episode of a gang if every named member that has not ended has arrived: who waits may go (R342). -/
def closeEpisode (g : Gang) : Gang :=
  if g.arrived.isEmpty then g
  else if (List.range g.members.length).all (fun m => !maskNames g.mask m || g.ended.contains m || g.arrived.contains m) then
    { g with passed := g.arrived ++ g.passed, arrived := [] }
  else g

/-- A member arrives at its gang's barrier; the first arrival fixes the episode's mask and scope (R342). -/
def arrive (mask scope member : Nat) (g : Gang) : Gang :=
  closeEpisode
    { g with
      mask := if g.arrived.isEmpty then mask else g.mask
      scope := if g.arrived.isEmpty then scope else g.scope
      arrived := insertNat member g.arrived
      barrier := true }

/-- The gang of a task. -/
def gangOf (s : State) (num : BitVec 32) : Option Gang := s.gangs.find? (fun g => g.members.contains num)

/-- Change the gang of a task. -/
def modGang (s : State) (num : BitVec 32) (f : Gang → Gang) : State :=
  { s with gangs := s.gangs.map (fun g => if g.members.contains num then f g else g) }

/-- Does a tower's core clock tick in this count of CYC: (8 - step) of 8 counts (R361)? -/
def clockTicks (s : State) (t : BitVec 3) : Bool :=
  let f := 8 - (getTower s t).thermal.step.toNat
  let c := s.pkg.cyc.toNat
  decide ((c + 1) * f / 8 ≠ c * f / 8)

/-- The number of core cycles of a tower before a count of CYC, at its present clock step (R361). -/
def coreCycleAt (s : State) (t : BitVec 3) (cyc : Word) : Nat := cyc.toNat * (8 - (getTower s t).thermal.step.toNat) / 8

/-- The number of core cycles of a tower before the present count of CYC. -/
def coreCycle (s : State) (t : BitVec 3) : Nat := coreCycleAt s t s.pkg.cyc

/-- The bus group a task is attached to. -/
def busOf (s : State) (num : BitVec 32) : Option BusGrp := s.buses.find? (fun g => g.members.any (fun m => decide (m.num = num)))

/-- The tasks throttled together with a task: its barrier gang, or the members of its bus group (R363). -/
def throttleUnit (s : State) (k : Task) : List (BitVec 32) :=
  let bus := ((busOf s k.num).map (fun b => b.members.map (fun m => m.num))).getD [k.num]
  match gangOf s k.num with
  | some g => if g.barrier then g.members else bus
  | none => bus

/-- The core whose count a core shares: the first core of its unit, or itself. -/
def throttleLead (s : State) (a : Agent) : Nat :=
  let x := getCore s a
  if x.live then (((throttleUnit s x.task).filterMap (findPlaced s)).map coreKey).foldl min (coreKey a) else coreKey a

/-- Does the power throttle withhold this cycle of a core: g of every 16 core cycles, the same ones for all cores of a tower, with
one g for the cores of a unit from the moment they become one (R363)? -/
def withheld (s : State) (a : Agent) : Bool :=
  decide (coreCycle s (agentTower a) % 16 < (getCore s (keyAgent (throttleLead s a))).throttle)

/-- Members of a group that wait and whose turn in this cycle has passed get another, so that all of them issue in one cycle
(R38, R342) (DEDUCED, log 69). -/
def issueAgain (s : State) (l : List (BitVec 32)) : State :=
  let late := fun (a : Agent) => decide (a ≠ s.cur) && !s.moves.contains (.bundleIssue a) && !s.moves.contains (.bundleSlow a) && clockTicks s (agentTower a)
  { s with moves := s.moves ++ ((l.filterMap (findPlaced s)).filter late).map Move.bundleIssue }

/-- The members of a gang whose episode has ended and who have not issued since (R342). -/
def passedOf (g : Gang) : List (BitVec 32) := g.passed.filterMap (fun m => g.members[m]?)

/-- The mark of a wait. -/
def markWait (s : State) (w : WaitMark) : State :=
  match w with
  | .slice => markWaiting s
  | .token r => modTask s (fun t => { t with waitTok := some r })
  | .version n home buf hold v =>
    let s1 := modTask s (fun t => { t with verWait := some ⟨n, hold, .waiting⟩ })
    modCore s1 home (fun c => { c with vbd := c.vbd.zipIdx.map (fun b =>
      if b.2 = buf then { b.1 with waits := b.1.waits ++ [⟨s.cur, (curTask s).num, hold, v⟩] } else b.1) })
  | .beat => markMaccWait s
  | .results => modTask s (fun t => { t with due := t.due.map (fun d => { d with due := d.due - 1 }) })
  | .barrier mask scope => modGang s (curTask s).num (arrive mask scope (curTask s).member)
  | .walk va => askWalk s s.cur (curTask s).ctx va false
  | .link va => askWalk s s.cur (fetchCtx s s.cur) va true

/-- What becomes of a state on a syllable's answer: the next state, the exception taken, or nothing yet. -/
def settle (s : State) : Act → State
  | .done s' => s'
  | .trap f => takeFault s s.cur f
  | .stall => s
  | .wait w => markWait s w

/-- Sequencing of actions: a fault or a stall ends them. -/
def Act.bind : Act → (State → Act) → Act
  | .done s, f => f s
  | .trap x, _ => .trap x
  | .stall, _ => .stall
  | .wait w, _ => .wait w

end Sys2Proof.Machine
end

