-- ==== Sys2Proof/Machine/Operands.lean ====
section
/-!
DEFINITION. Operands: reading registers and latches at issue, results on their way to registers, latches and flags, and which
registers an instruction names (spec 11_bundle_encoding.md R221 to R226, 12_scalar_control.md R237 to R240).
-/
namespace Sys2Proof.Machine

/-! ### Reading at issue (R221, R225, R226) -/

/-- A scalar register; s0 reads zero. -/
def scalarReg (t : Task) (r : Nat) : Word := if r = 0 then 0 else mapGet 0 t.s r

/-- The latch at a position of a scalar ring; an empty position reads zero (R146). -/
def latchS (l : List Word) (n : Nat) : Word := l.getD n 0

/-- A scalar source code: s0 to s63, sl0 to sl7 of SCA, sl8 to sl15 of SCB (R225, R226). -/
def scalarCode (t : Task) (c : Nat) : Word :=
  if c < 64 then scalarReg t c else if c < 72 then latchS t.rings.sca (c - 64) else latchS t.rings.scb (c - 72)

/-- A scalar source field. -/
def scalarIn (t : Task) (c : BitVec 7) : Word := scalarCode t c.toNat

/-- A vector ring by the number of a latch. -/
def ringOf (r : Rings) (n : Nat) : VRing :=
  if n < 4 then r.vec else if n < 8 then r.mtx else if n < 12 then r.mls else r.gat

/-- A vector source code: v0 to v639, or l0 to l15 from 1008 (R225, R226). -/
def vectorCode (t : Task) (c : Nat) : VReg :=
  if c < 1008 then mapGet 0 t.v c else ((ringOf t.rings (c - 1008)).getD ((c - 1008) % 4) (0, none)).1

/-- A vector source field. -/
def vectorIn (t : Task) (c : BitVec 10) : VReg := vectorCode t c.toNat

/-- A predicate register (R258). -/
def predReg (t : Task) (n : Nat) : Pred := mapGet 0 t.q n

/-- A flag; c0 reads true (R143). -/
def flagReg (t : Task) (n : Nat) : Bool := decide (n = 0) || t.c.getLsbD n

/-- A branch target register (R250). -/
def targetReg (t : Task) (n : Nat) : Word := mapGet 0 t.t n

/-- An AGU base (R289). -/
def baseReg (t : Task) (n : Nat) : Word := mapGet 0 t.a n

/-- A record register; invalid until loaded (R84). -/
def recReg (t : Task) (n : Nat) : Rec := mapGet ⟨0, false, false⟩ t.b n

/-- A handle register; invalid until written (R85). -/
def handleReg (t : Task) (n : Nat) : Handle := mapGet ⟨0, 0⟩ t.h n

/-- Does the predicate of a syllable hold (R222)? -/
def predicateHolds (t : Task) (h : Head) : Bool := flagReg t h.pf.toNat != h.pn.getLsbD 0

/-! ### Results on their way (R237 to R239) -/

/-- A result of latency `lat` from the bundle being issued. -/
def mkDue (t : Task) (lat slot : Nat) (d : Dest) (ring : Option Ring) (flags : BitVec 3) (bad : Option Word) : Due :=
  { due := t.issued + lat, born := t.issued, slot := slot, dst := d, ring := ring, flags := flags, poisoned := bad }

/-- Put a result on its way. -/
def pushDue (s : State) (lat slot : Nat) (d : Dest) (ring : Option Ring := none) (flags : BitVec 3 := 0)
    (bad : Option Word := none) : State :=
  modTask s (fun t => { t with due := t.due ++ [mkDue t lat slot d ring flags bad] })

/-- A scalar result of a slot. -/
def pushScalar (s : State) (lat slot r : Nat) (x : Word) (ring : Option Ring := none) : State :=
  pushDue s lat slot (.scalar r x) ring

/-- The scalar ring of a scalar slot. -/
def portRing : Port → Ring
  | .sca => .sca
  | .scb => .scb

/-- A new entry at the newest position of a ring of `n` places (R226). -/
def pushRing {α : Type} (n : Nat) (x : α) (l : List α) : List α := (x :: l).take n

/-- Remove a poison mark. -/
def unpoison (c : PoisonCell) (l : List (PoisonCell × Word)) : List (PoisonCell × Word) := l.filter (fun x => x.1 ≠ c)

/-- Set or clear the poison mark of a cell that is written (R378). -/
def markPoison (bad : Option Word) (c : PoisonCell) (l : List (PoisonCell × Word)) : List (PoisonCell × Word) :=
  match bad with
  | some a => (c, a) :: unpoison c l
  | none => unpoison c l

/-- A vector result enters a ring. -/
def ringVec (r : Rings) (k : Ring) (x : VReg) (bad : Option Word) : Rings :=
  match k with
  | .vec => { r with vec := pushRing 4 (x, bad) r.vec }
  | .mtx => { r with mtx := pushRing 4 (x, bad) r.mtx }
  | .mls => { r with mls := pushRing 4 (x, bad) r.mls }
  | .gat => { r with gat := pushRing 4 (x, bad) r.gat }
  | .sca => r
  | .scb => r

/-- A scalar result enters a ring. -/
def ringSca (r : Rings) (k : Ring) (x : Word) : Rings :=
  match k with
  | .sca => { r with sca := pushRing 8 x r.sca }
  | .scb => { r with scb := pushRing 8 x r.scb }
  | .vec => r
  | .mtx => r
  | .mls => r
  | .gat => r

/-- Set a flag; c0 stays true. -/
def setFlag (c : BitVec 16) (n : Nat) (x : Bool) : BitVec 16 :=
  if n = 0 then c else if x then c ||| (1#16 <<< n) else c &&& ~~~(1#16 <<< n)

/-- Write a result into its register and its ring, and raise its flags (R212, R226). -/
def writeDue (t : Task) (d : Due) : Task :=
  let u := { t with fps := t.fps ||| d.flags }
  match d.dst with
  | .scalar r x =>
    { u with
      s := if r = 0 then u.s else mapPut u.s r x
      poison := if r = 0 then u.poison else markPoison d.poisoned (.scalar r) u.poison
      rings := match d.ring with
        | some k => ringSca u.rings k x
        | none => u.rings }
  | .vector r x =>
    { u with
      v := match r with
        | some n => mapPut u.v n x
        | none => u.v
      poison := match r with
        | some n => markPoison d.poisoned (.vector n) u.poison
        | none => u.poison
      rings := match d.ring with
        | some k => ringVec u.rings k x d.poisoned
        | none => u.rings }
  | .pred r x => { u with q := mapPut u.q r x }
  | .flag r x => { u with c := setFlag u.c r x }
  | .target r x => { u with t := mapPut u.t r x }
  | .base r x => { u with a := mapPut u.a r x }
  | .handle r x => { u with h := mapPut u.h r x }
  | .record r x => { u with b := mapPut u.b r x, poison := markPoison d.poisoned (.record r) u.poison }
  | .gaIndex x => { u with gaI := x }
  | .gaData x => { u with gaD := x }

/-- Does one result fall before another: by its count, then the syllable's bundle, then its slot (R221, R239)? -/
def dueBefore (x y : Due) : Bool :=
  decide (x.due < y.due) ||
    (decide (x.due = y.due) && (decide (x.born < y.born) || (decide (x.born = y.born) && decide (x.slot < y.slot))))

/-- Insert a result in falling order, behind those that fall with it. -/
def insertDue (d : Due) : List Due → List Due
  | [] => [d]
  | x :: l => if dueBefore d x then d :: x :: l else x :: insertDue d l

/-- Results in the order in which they fall. -/
def sortDue (l : List Due) : List Due := l.foldl (fun acc d => insertDue d acc) []

/-- Write every result that is due by a count, in falling order (R237). -/
def commitTo (n : Nat) (t : Task) : Task :=
  let now := t.due.filter (fun d => decide (d.due ≤ n))
  (sortDue now).foldl writeDue { t with due := t.due.filter (fun d => decide (n < d.due)) }

/-- Write every result due before the bundle about to issue reads its operands. -/
def commitDue (t : Task) : Task := commitTo t.issued t

/-- Write every outstanding result in order, as a drain does (R253). -/
def commitAll (t : Task) : Task := (sortDue t.due).foldl writeDue { t with due := [] }

/-- Empty the latch rings: a group has ended (R146). -/
def endRings (t : Task) : Task := { t with rings := Rings.empty }

/-- Drain the pipelines of a task (R253): at once, or, where an MLS access of its last bundle is still being performed, when it has
been. -/
def drainAll (t : Task) : Task := if t.due.any (fun d => d.late.isSome) then { t with drainTo := some false } else commitAll t

/-- The end of a drain that waited; the rings are empty where its group has ended. -/
def endDrain (t : Task) : Task :=
  match t.drainTo with
  | none => t
  | some ended =>
    if t.due.any (fun d => d.late.isSome) then t
    else
      let u := commitAll { t with drainTo := none }
      if ended then endRings u else u

/-- Let the exposed results come one bundle nearer while a syllable waits for room in the result buffers (R374). -/
def advanceDue (t : Task) : Task := { t with due := t.due.map (fun d => { d with due := d.due - 1 }) }

/-- Vector results outstanding. -/
def dueVectors (l : List Due) : Nat :=
  (l.filter (fun d =>
    match d.dst with
    | .vector _ _ => true
    | _ => false)).length

/-- Would the outstanding results exceed the shadow result buffer: 28 vector results and 256 others (R374)? -/
def dueOver (t : Task) : Bool :=
  decide (28 < dueVectors t.due) || decide (256 < t.due.length - dueVectors t.due)

/-! ### What an instruction names -/

/-- The registers an instruction names: scalar codes read and written, vector codes read and written, tiles, records and
handles. -/
structure Uses where
  sr : List Nat
  sw : List Nat
  vr : List Nat
  vw : List Nat
  z : List Nat
  br : List Nat
  hr : List Nat
  deriving DecidableEq, Repr

/-- No register. -/
def noUses : Uses := ⟨[], [], [], [], [], [], []⟩

/-- Scalar fields read and written. -/
def sUses (rd wr : List (BitVec 7)) : Uses :=
  { noUses with sr := rd.map BitVec.toNat, sw := wr.map BitVec.toNat }

/-- Is the mask bit of a vector syllable set (R296)? -/
def masked (f : VecF) : Bool := f.md.getLsbD 3

/-- Vector fields read, with the destination, which a merging form also reads. -/
def vUses (f : VecF) (rd : List (BitVec 10)) (merge : Bool) : Uses :=
  let w := if f.nwb = 1 then [] else [f.dst.toNat]
  { noUses with vr := rd.map BitVec.toNat ++ (if merge then w else []), vw := w }

/-- Vector fields read, with no vector result. -/
def pUses (rd : List (BitVec 10)) : Uses := { noUses with vr := rd.map BitVec.toNat }

/-- Scalar codes in vector fields (R301). -/
def withS (u : Uses) (l : List (BitVec 10)) : Uses := { u with sr := l.map BitVec.toNat }

/-- The address fields of a memory syllable, with scalar data read and written (R265). -/
def mUses (mtw : Bool) (f : MemF) (rd wr : List Nat) : Uses :=
  { noUses with
    sr := f.x.toNat :: rd, sw := wr ++ (if memPi f then [f.x.toNat] else []), br := [f.b.toNat],
    hr := if mtw then [f.h.toNat] else [] }

/-- The registers of a vector or tile form (R265). -/
def mvUses (mtw : Bool) (f : MemF) (store : Bool) : Uses :=
  let l := (List.range (2 ^ memRc f)).map (fun k => f.data.toNat + k)
  { mUses mtw f [] [] with vr := if store then l else [], vw := if store then [] else l }

/-- What an instruction names, from its operand fields (R224, R225, and each instruction's description). -/
def usesOf : Instr → Uses
  | .nop _ => noUses
  | .bundleIssue _ => noUses
  | .budgetTrap _ _ => noUses
  | .add _ _ f => sUses [f.a, f.b] [f.d]
  | .sub _ _ f => sUses [f.a, f.b] [f.d]
  | .addi _ _ f => sUses [f.a] [f.d]
  | .mul _ _ f => sUses [f.a, f.b] [f.d]
  | .mulh _ _ f => sUses [f.a, f.b] [f.d]
  | .mulhu _ _ f => sUses [f.a, f.b] [f.d]
  | .div _ f => sUses [f.a, f.b] [f.d]
  | .divu _ f => sUses [f.a, f.b] [f.d]
  | .rem _ f => sUses [f.a, f.b] [f.d]
  | .remu _ f => sUses [f.a, f.b] [f.d]
  | .addpc _ _ f => sUses [] [f.d]
  | .and _ _ f => sUses [f.a, f.b] [f.d]
  | .or _ _ f => sUses [f.a, f.b] [f.d]
  | .xor _ _ f => sUses [f.a, f.b] [f.d]
  | .andn _ _ f => sUses [f.a, f.b] [f.d]
  | .andi _ _ f => sUses [f.a] [f.d]
  | .ori _ _ f => sUses [f.a] [f.d]
  | .xori _ _ f => sUses [f.a] [f.d]
  | .shl _ _ f => sUses [f.a, f.b] [f.d]
  | .shr _ _ f => sUses [f.a, f.b] [f.d]
  | .sar _ _ f => sUses [f.a, f.b] [f.d]
  | .shli _ _ f => sUses [f.a] [f.d]
  | .shri _ _ f => sUses [f.a] [f.d]
  | .sari _ _ f => sUses [f.a] [f.d]
  | .fshl _ _ f => sUses [f.a, f.b, f.c] [f.d]
  | .fshr _ _ f => sUses [f.a, f.b, f.c] [f.d]
  | .cmp _ _ f => sUses [f.a, f.b] []
  | .cmpi _ _ f => sUses [f.a] []
  | .sel _ _ f => sUses [f.a, f.b] [f.d]
  | .min _ _ f => sUses [f.a, f.b] [f.d]
  | .max _ _ f => sUses [f.a, f.b] [f.d]
  | .minu _ _ f => sUses [f.a, f.b] [f.d]
  | .maxu _ _ f => sUses [f.a, f.b] [f.d]
  | .bfx _ _ f => sUses [f.a] [f.d]
  | .bfxu _ _ f => sUses [f.a] [f.d]
  | .bfi _ _ f => sUses [f.a, f.b] [f.d]
  | .clz _ _ f => sUses [f.a] [f.d]
  | .ctz _ _ f => sUses [f.a] [f.d]
  | .popc _ _ f => sUses [f.a] [f.d]
  | .brev _ _ f => sUses [f.a] [f.d]
  | .bswap _ _ f => sUses [f.a] [f.d]
  | .li _ _ f => sUses [] [f.d]
  | .lih _ _ f => sUses [f.d] [f.d]
  | .phash _ f => sUses ([f.a, f.c] ++ (List.range 8).map (fun k => f.b + BitVec.ofNat 7 k)) [f.d]
  | .pbr _ _ => noUses
  | .pbrr _ f => sUses [f.a] []
  | .xfer _ _ => noUses
  | .xferl _ f => sUses [] [f.a]
  | .loop _ f => sUses [f.a] []
  | .loopi _ _ => noUses
  | .breakLoop _ _ => noUses
  | .vany _ _ => noUses
  | .vall _ _ => noUses
  | .fop _ f => sUses [f.c] []
  | .wfe _ _ => noUses
  | .sev _ f => sUses [f.a] []
  | .tend _ _ => noUses
  | .amov _ f => sUses [f.a] []
  | .aadd _ f => sUses [f.a] []
  | .aaddi _ _ => noUses
  | .acfg _ f => sUses [f.a] []
  | .aind _ f => sUses [f.a] []
  | .arun _ _ => noUses
  | .astop _ _ => noUses
  | .generatorStep _ => noUses
  | .vadd _ f => vUses f [f.s1, f.s2] (masked f)
  | .vsub _ f => vUses f [f.s1, f.s2] (masked f)
  | .vmul _ f => vUses f [f.s1, f.s2] (masked f)
  | .vfma _ f => vUses f [f.s1, f.s2, f.s3] false
  | .vmin _ f => vUses f [f.s1, f.s2] (masked f)
  | .vmax _ f => vUses f [f.s1, f.s2] (masked f)
  | .vabs _ f => vUses f [f.s1] (masked f)
  | .vneg _ f => vUses f [f.s1] (masked f)
  | .vadds _ f => vUses f [f.s1, f.s2] (masked f)
  | .vsubs _ f => vUses f [f.s1, f.s2] (masked f)
  | .vmulh _ f => vUses f [f.s1, f.s2] (masked f)
  | .vand _ f => vUses f [f.s1, f.s2] (masked f)
  | .vor _ f => vUses f [f.s1, f.s2] (masked f)
  | .vxor _ f => vUses f [f.s1, f.s2] (masked f)
  | .vandn _ f => vUses f [f.s1, f.s2] (masked f)
  | .vshl _ f => vUses f [f.s1, f.s2] (masked f)
  | .vshr _ f => vUses f [f.s1, f.s2] (masked f)
  | .vsar _ f => vUses f [f.s1, f.s2] (masked f)
  | .vpopc _ f => vUses f [f.s1] (masked f)
  | .vcvt _ f => vUses f [f.s1] true
  | .vpack _ f => vUses f [f.s1, f.s2] (masked f)
  | .vunpk _ f => vUses f [f.s1] false
  | .vrsum _ f => vUses f [f.s1] false
  | .vrmax _ f => vUses f [f.s1] false
  | .vrmin _ f => vUses f [f.s1] false
  | .vrand _ f => vUses f [f.s1] false
  | .vror _ f => vUses f [f.s1] false
  | .vcmp _ f => pUses [f.s1, f.s2]
  | .vqand _ _ => noUses
  | .vqor _ _ => noUses
  | .vqnot _ _ => noUses
  | .vsel _ f => vUses f [f.s1, f.s2] false
  | .vperm _ f => vUses f (if elemSize f.ty = 1 then [f.s1, f.s2, f.s3] else [f.s1, f.s2]) false
  | .vbcast _ f => withS (vUses f [] (masked f)) [f.s2]
  | .vbcastLn _ f => withS (vUses f [f.s1] (masked f)) [f.s2]
  | .vmov _ f => vUses f [f.s1] (masked f)
  | .vins _ f => withS (vUses f [f.s1] false) [f.s2, f.s3]
  | .vext _ f => withS (vUses f [f.s1, f.s2] false) [f.s3]
  | .vzps _ f => vUses f [f.s1, f.s2] false
  | .vplx _ f => vUses f [f.s1, f.s2] false
  | .vpli _ f => vUses f [f.s1] false
  | .vexp2 _ f => vUses f [f.s1] false
  | .vrcp _ f => vUses f [f.s1] false
  | .vmrg _ f => vUses f [f.s1, f.s2] false
  | .gidx _ f => pUses [f.s1]
  | .gath _ f => vUses f [] false
  | .mcfg _ f => { pUses [f.s1] with z := [f.z.toNat] }
  | .busEpochStart _ _ _ => noUses
  | .mzero _ f => { noUses with z := [f.z.toNat] }
  | .mpush _ f => { pUses [f.s1] with z := [f.z.toNat] }
  | .mshf _ _ => noUses
  | .macc _ _ => noUses
  | .macch _ _ => noUses
  | .mdrn _ f => { noUses with vr := if f.md.getLsbD 1 then [f.s2.toNat] else [], vw := [f.s1.toNat], z := [f.z.toNat] }
  | .grantWindow _ _ _ => noUses
  | .ld _ f => mUses false f [] [f.data.toNat % 128]
  | .ldz _ f => mUses false f [] [f.data.toNat % 128]
  | .st _ f => mUses false f [f.data.toNat % 128] []
  | .vld _ f => mvUses false f false
  | .vst _ f => mvUses false f true
  | .tld _ f => mvUses false f false
  | .tst _ f => mvUses false f true
  | .amo _ f => mUses false f [f.data.toNat % 128] [f.data.toNat % 128]
  | .cas _ f => mUses false f [f.data.toNat % 128, f.data.toNat % 128 + 1] [f.data.toNat % 128]
  | .mark _ _ => noUses
  | .gld _ f => mUses false f [] [f.data.toNat % 128]
  | .gldz _ f => mUses false f [] [f.data.toNat % 128]
  | .gst _ f => mUses false f [f.data.toNat % 128] []
  | .gvld _ f => mvUses false f false
  | .gvst _ f => mvUses false f true
  | .gtld _ f => mvUses false f false
  | .gtst _ f => mvUses false f true
  | .gamo _ f => mUses false f [f.data.toNat % 128] [f.data.toNat % 128]
  | .gcas _ f => mUses false f [f.data.toNat % 128, f.data.toNat % 128 + 1] [f.data.toNat % 128]
  | .gmark _ _ => noUses
  | .wld _ f => mUses true f [] [f.data.toNat % 128]
  | .wldz _ f => mUses true f [] [f.data.toNat % 128]
  | .wst _ f => mUses true f [f.data.toNat % 128] []
  | .wvld _ f => mvUses true f false
  | .wvst _ f => mvUses true f true
  | .wtld _ f => mvUses true f false
  | .wtst _ f => mvUses true f true
  | .wamo _ f => mUses true f [f.data.toNat % 128] [f.data.toNat % 128]
  | .wcas _ f => mUses true f [f.data.toNat % 128, f.data.toNat % 128 + 1] [f.data.toNat % 128]
  | .wmark _ _ => noUses
  | .bld _ f => { noUses with sr := [f.x.toNat], br := [f.b.toNat] }
  | .xlate _ f => { noUses with sr := [f.x.toNat], hr := [f.h.toNat] }
  | .fence _ _ => noUses
  | .cpy _ f => { noUses with sr := [f.a.toNat, f.b.toNat, f.c.toNat] ++ (if f.x = 1 then [f.d.toNat] else []), sw := [f.tok.toNat] }
  | .cpyt _ f => { noUses with sr := [f.a.toNat, f.b.toNat, f.c.toNat, f.d.toNat], sw := [f.tok.toNat] }
  | .copyIssue _ => noUses
  | .chunkLand _ _ _ => noUses
  | .waitc _ f => { noUses with sr := [f.a.toNat] }
  | .pxfer _ f => { noUses with sr := [f.a.toNat, f.b.toNat, f.c.toNat] ++ (if f.x = 1 then [f.d.toNat] else []), sw := [f.tok.toNat] }
  | .peerChunkReceive _ _ _ _ => noUses
  | .sqopen _ f => { noUses with sr := [f.a.toNat], sw := [f.tok.toNat] }
  | .sqclose _ f => { noUses with sr := [f.a.toNat], sw := [f.tok.toNat] }
  | .sqnode _ f => { noUses with sr := [f.a.toNat, f.b.toNat, f.c.toNat], sw := [f.tok.toNat] }
  | .sqchk _ f => { noUses with sr := [f.a.toNat, f.b.toNat, f.c.toNat], sw := [f.tok.toNat] }
  | .sqacc _ f => { noUses with sr := [f.a.toNat, f.b.toNat, f.c.toNat, f.d.toNat], sw := [f.tok.toNat] }
  | .sqaccAssistComplete _ f => { noUses with sr := [f.a.toNat, f.b.toNat, f.c.toNat, f.d.toNat], sw := [f.tok.toNat] }
  | .sqsave _ f => { noUses with sr := [f.a.toNat, f.b.toNat], sw := [f.tok.toNat] }
  | .sqrst _ f => { noUses with sr := [f.a.toNat], sw := [f.tok.toNat] }
  | .kvgrow _ f => { noUses with sr := [f.a.toNat, f.b.toNat, f.c.toNat], sw := [f.tok.toNat] }
  | .kvcommit _ f => { noUses with sr := [f.a.toNat, f.b.toNat], sw := [f.tok.toNat] }
  | .kvroll _ f => { noUses with sr := [f.a.toNat, f.b.toNat], sw := [f.tok.toNat] }
  | .kvexport _ f => { noUses with sr := [f.a.toNat, f.b.toNat, f.c.toNat], sw := [f.tok.toNat] }
  | .kvpoolEnable _ f => { noUses with sr := [f.a.toNat, f.b.toNat, f.c.toNat, f.d.toNat], sw := [f.tok.toNat] }
  | .kvpoolDisable _ f => { noUses with sr := [f.a.toNat, f.b.toNat, f.c.toNat, f.d.toNat], sw := [f.tok.toNat] }
  | .kvpoolPin _ f => { noUses with sr := [f.a.toNat, f.b.toNat, f.c.toNat, f.d.toNat], sw := [f.tok.toNat] }
  | .kvpoolUnpin _ f => { noUses with sr := [f.a.toNat, f.b.toNat, f.c.toNat, f.d.toNat], sw := [f.tok.toNat] }
  | .kvpoolSetent _ f => { noUses with sr := [f.a.toNat, f.b.toNat, f.c.toNat, f.d.toNat], sw := [f.tok.toNat] }
  | .kvpoolAlloc _ f => { noUses with sr := [f.a.toNat, f.b.toNat, f.c.toNat, f.d.toNat], sw := [f.tok.toNat] }
  | .kvpoolFree _ f => { noUses with sr := [f.a.toNat, f.b.toNat, f.c.toNat, f.d.toNat], sw := [f.tok.toNat] }
  | .pfxlook _ f => { noUses with sr := [f.a.toNat, f.b.toNat, f.c.toNat], sw := [f.tok.toNat] }
  | .pfxins _ f => { noUses with sr := [f.a.toNat, f.b.toNat, f.c.toNat], sw := [f.tok.toNat] }
  | .pfxinsAssistComplete _ f => { noUses with sr := [f.a.toNat, f.b.toNat, f.c.toNat], sw := [f.tok.toNat] }
  | .pfxpin _ f => { noUses with sr := [f.a.toNat, f.b.toNat], sw := [f.tok.toNat] }
  | .stcfgConfigure _ f => { noUses with sr := [f.a.toNat, f.b.toNat, f.c.toNat], sw := [f.tok.toNat] }
  | .stcfgDisable _ f => { noUses with sr := [f.a.toNat, f.b.toNat, f.c.toNat], sw := [f.tok.toNat] }
  | .stcfgEvict _ f => { noUses with sr := [f.a.toNat, f.b.toNat, f.c.toNat], sw := [f.tok.toNat] }
  | .stcfgRestore _ f => { noUses with sr := [f.a.toNat, f.b.toNat, f.c.toNat], sw := [f.tok.toNat] }
  | .spawn _ f => sUses [f.a, f.b] [f.d]
  | .gbar _ _ => noUses
  | .watch _ f => sUses [f.a, f.b] [f.d]
  | .unwatch _ f => sUses [f.a] [f.d]
  | .ttrel _ f => sUses [f.a, f.b] [f.d]
  | .rdtime _ f => sUses [] [f.d]
  | .waittCyc _ f => sUses [f.a] []
  | .waittTick _ f => sUses [f.a, f.b] []
  | .budset _ f => sUses [f.a] [f.d]
  | .vopen _ f => sUses [f.a] [f.d]
  | .vseal _ f => sUses [f.a] []
  | .vsealPerform _ => noUses
  | .vhold _ f => sUses [f.a, f.b] [f.d]
  | .vrel _ f => sUses [f.a, f.b] []
  | .mfsr _ f => sUses [] [f.d]
  | .mtsr _ f => sUses [f.a] []
  | .svc _ f => sUses [f.a] [f.d]
  | .eret _ _ => noUses
  | .trap _ f => sUses [f.a] []
  | .csld _ f => sUses [f.a] [f.d]
  | .icinv _ f => sUses [f.a, f.b] []
  | .halt _ _ => noUses
  | .mmt _ f => { sUses [f.a] [f.d] with z := [f.imm.toNat / 256 % 8] }
  | .matt _ f => { sUses [f.a, f.b] [f.d] with z := [f.imm.toNat / 256 % 8] }
  | .macroBegin _ _ => noUses
  | .taskLaunch _ _ _ => noUses
  | .pop _ _ _ _ _ => noUses
  | .gangBackoffExpiry _ _ => noUses
  | .drainClaimCommit _ _ => noUses
  | .preemption _ _ => noUses
  | .frameStart => noUses
  | .releaseTick _ => noUses
  | .streamCheckPoint _ _ => noUses
  | .streamTick _ _ => noUses
  | .watchTrigger _ => noUses
  | .ethFrameReceive _ _ _ => noUses
  | .ptpMessage _ _ _ _ _ => noUses
  | .streamEviction _ _ => noUses
  | .streamRestore _ _ => noUses
  | .pageInSwitch _ => noUses
  | .evictionRetry _ => noUses
  | .evictionSwitch _ => noUses
  | .backgroundZeroing _ => noUses
  | .spireErrorThreshold _ _ _ => noUses
  | .spireLaneFail _ _ => noUses
  | .sprqDecide _ _ => noUses
  | .sprqSpare _ _ => noUses
  | .sprqReroute _ _ => noUses
  | .spireRetirement _ _ => noUses
  | .bufferMigration _ _ => noUses
  | .sensorSample _ _ _ => noUses
  | .thermalStepTimer _ => noUses
  | .thermalReleaseTimer _ => noUses
  | .powerThrottleAdjust _ _ => noUses
  | .softErrorAtRest _ _ => noUses
  | .supervisorTrapEntry _ => noUses
  | .heldTrapRetry _ => noUses
  | .cfsynResume _ _ => noUses
  | .cfsynSuspend _ _ => noUses
  | .tfgoFill _ _ => noUses
  | .tfgoFail _ _ => noUses
  | .tkillTask _ _ => noUses
  | .tkillContextTower _ _ => noUses
  | .tkillContextPackage _ _ => noUses
  | .sevw _ _ => noUses
  | .svcr _ _ => noUses
  | .otw _ _ => noUses
  | .otwBusyClear _ => noUses
  | .xinvPage _ _ => noUses
  | .xinvContext _ _ => noUses
  | .xinvAll _ _ => noUses
  | .xinvDone => noUses
  | .vbdEnable _ _ _ _ => noUses
  | .vbdDisable _ _ _ _ => noUses
  | .cfmWrite _ _ _ => noUses
  | .budWrite _ _ _ => noUses
  | .frmcfgWrite _ => noUses
  | .tofsWrite _ => noUses
  | .hcwWrite _ _ => noUses
  | .registerWrite _ _ _ => noUses
  | .hostPostedWrite _ _ _ => noUses
  | .hostRead _ _ _ => noUses
  | .hostAtomicRequest _ _ => noUses
  | .platctlWrite _ => noUses
  | .resumeWrite _ => noUses
  | .controlWindowWrite _ _ => noUses
  | .linkTraining _ _ _ => noUses
  | .packageReset => noUses
  | .pcieLinkTrain => noUses
  | .aknelVerify _ _ => noUses
  | .dramSpireTraining _ _ => noUses
  | .malaskunStart _ _ => noUses
  | .attestationRequest _ => noUses
  | .accessPerformedAtHome _ _ _ => noUses
  | .ptpMasterLost => noUses

/-! ### Limits of the task (R144) -/

/-- The declared vector registers of a task. -/
def vregs (t : Task) : Nat := t.desc.toNat / 2 ^ 118 % 1024

/-- The declared tiles of a task. -/
def tiles (t : Task) : Nat := t.desc.toNat / 2 ^ 114 % 16

/-- Does the instruction name only live vector registers and tiles? (DEDUCED, log 98). -/
def namesLive (t : Task) (u : Uses) : Bool :=
  (u.vr ++ u.vw).all (fun c => decide (1008 ≤ c) || decide (c < vregs t)) && u.z.all (fun z => decide (z < tiles t))

/-- The poison mark of a cell, if any. -/
def poisonOf (t : Task) (c : PoisonCell) : Option Word := (t.poison.find? (fun x => x.1 = c)).map Prod.snd

/-- The FADR of the first poisoned register or latch that an instruction reads, if any (R368, R378). -/
def readsPoison (t : Task) (u : Uses) : Option Word :=
  (u.sr.map (fun c => poisonOf t (.scalar c)) ++
    u.vr.map (fun c =>
      if c < 1008 then poisonOf t (.vector c)
      else ((ringOf t.rings (c - 1008)).getD ((c - 1008) % 4) (0, none)).2) ++
    u.br.map (fun c => poisonOf t (.record c))).findSome? id

/-! ### The scoreboard (R35, R284, R294, R320) -/

/-- The scalar register an access in flight will write, if any. -/
def accScalar (o : AccOp) : Option Nat :=
  match o with
  | .loadS d _ _ => some d
  | .atomic _ d _ _ _ => some d
  | .loadV _ => none
  | .store _ => none
  | .bld _ => none
  | .mark => none
  | .fence _ _ _ => none

/-- The vector register an access in flight will write, if any. -/
def accVector (o : AccOp) : Option Nat :=
  match o with
  | .loadV r => some r
  | .loadS _ _ _ => none
  | .atomic _ _ _ _ _ => none
  | .store _ => none
  | .bld _ => none
  | .mark => none
  | .fence _ _ _ => none

/-- The record register a BLD in flight will write, if any. -/
def accRecord (o : AccOp) : Option Nat :=
  match o with
  | .bld b => some b
  | .loadS _ _ _ => none
  | .loadV _ => none
  | .atomic _ _ _ _ _ => none
  | .store _ => none
  | .mark => none
  | .fence _ _ _ => none

/-- The accesses in flight of a task on a core. -/
def myAcc (s : State) (a : Agent) (num : BitVec 32) : List Access :=
  s.acc.filter (fun x => decide (x.who = a) && decide (x.num = num))

/-- The jobs of a task on a core that hold a token. -/
def myJobs (s : State) (a : Agent) (num : BitVec 32) : List Job :=
  s.jobs.filter (fun j => decide (j.who = a) && decide (j.num = num) && decide (j.tok ≠ 0))

/-- Is a token register pending (R284)? -/
def tokPending (s : State) (a : Agent) (num : BitVec 32) (r : Nat) : Bool :=
  (myJobs s a num).any (fun j => decide (j.tok = r))

/-- Does a launch in progress owe its number to a register of a task (R341)? -/
def replyPending (s : State) (num : BitVec 32) (a : Agent) (r : Nat) : Bool :=
  s.towers.any (fun w => w.2.launches.any (fun l =>
    match l.reply with
    | some x => (decide (x.1 = a) || !isSup x.1) && decide (x.2.1 = num) && decide (x.2.2.1 = r)
    | none => false))

/-- The output registers of a queued MATT, from its command block (R324): the first and their number. -/
def mattOuts (s : State) (m : Macro) : Nat × Nat :=
  let rows := bits (readNat s (m.block.toNat + 8) 8) 58 54 + 1
  let g := m.record.toNat / 2 ^ 80 % 256
  (readNat s m.block.toNat 8 % 1024, ceilDiv rows (2 ^ g))

/-- Is a scalar register held by a macro: its status register (R320)? -/
def macroScalar (t : Task) (r : Nat) : Bool := t.macros.any (fun m => decide (m.status = r) && decide (r ≠ 0))

/-- Is a vector register held by a macro: an output register of MATT (R320)? -/
def macroVector (s : State) (t : Task) (r : Nat) : Bool :=
  t.macros.any (fun m =>
    decide (m.kind = .matt) && decide ((mattOuts s m).1 ≤ r) && decide (r < (mattOuts s m).1 + (mattOuts s m).2))

/-- Is a tile held by a macro (R320)? -/
def macroTile (t : Task) (z : Nat) : Bool := t.macros.any (fun m => decide (m.z = z))

/-- Is a record register being loaded by a BLD of an earlier bundle (R221, R277)? -/
def recPending (s : State) (a : Agent) (num : BitVec 32) (b : Nat) : Bool :=
  (myAcc s a num).any (fun x => decide (accRecord x.op = some b) && decide (x.born ≠ (getCore s a).task.issued))

/-- Must an instruction wait for a register that an access, a copy, a command, a launch or a macro will write? -/
def hazard (s : State) (a : Agent) (t : Task) (u : Uses) : Bool :=
  let acc := myAcc s a t.num
  u.sr.any (fun r => r ≠ 0 ∧ r < 64 ∧
      (acc.any (fun x => decide (accScalar x.op = some r)) ∨ replyPending s t.num a r)) ||
    (u.sr ++ u.sw).any (fun r => r ≠ 0 ∧ r < 64 ∧ (tokPending s a t.num r ∨ macroScalar t r)) ||
    (u.vr ++ u.vw).any (fun r => acc.any (fun x => decide (accVector x.op = some r)) || macroVector s t r) ||
    u.z.any (macroTile t) ||
    u.br.any (recPending s a t.num)

end Sys2Proof.Machine
end

