-- ==== Sys2Proof/Machine/Gate.lean ====
section
/-!
DEFINITION. What stands before a syllable's own effect: its predicate (R223), the decode faults of its kind in their order
(R227), the scoreboard, and poisoned operands (R378).
-/
namespace Sys2Proof.Machine

/-- The feature bit that a slot's unit needs (R150, R220). -/
def slotFeature (slot : Nat) : Nat :=
  match slot with
  | 4 => 2
  | 5 => 3
  | 6 => 4
  | 7 => 1
  | _ => 0

/-- Does the core that acts have a feature bit? -/
def hasFeature (s : State) (n : Nat) : Bool := (getCore s s.cur).cfm.getLsbD n

/-- An instruction that must stand in the first bundle of its issue group (R218, R285, R342, R345). -/
def firstOnly : Instr → Bool
  | .wfe _ _ => true
  | .vopen _ _ => true
  | .vhold _ _ => true
  | .waitc _ _ => true
  | .waittCyc _ _ => true
  | .waittTick _ _ => true
  | .gbar _ _ => true
  | _ => false

/-- A transfer or the start of a loop, which no delay bundle may hold (R252). -/
def isTransfer : Instr → Bool
  | .xfer _ _ => true
  | .xferl _ _ => true
  | .loop _ _ => true
  | .loopi _ _ => true
  | _ => false

/-- Does an instruction stand where it may not: `stop` is its bundle's stop bit, if a bundle is known (R218, R252, R349)? -/
def badPosition (t : Task) (stop : Option Bool) (i : Instr) : Bool :=
  (firstOnly i && decide (t.group ≠ 0)) ||
    (isTransfer i && t.pend.isSome) ||
    (match i with
     | .xfer _ f => decide (f.dly ≠ 0) && decide (stop = some true)
     | .xferl _ f => decide (f.dly ≠ 0) && decide (stop = some true)
     | .svc _ _ => decide (stop = some false)
     | .eret _ _ => decide (stop = some false)
     | _ => false)

/-- Does a macro's record ask for the 256 columns of WIDE on a core without it (R320, R322)? -/
def wideAbsent (s : State) (f : SysF) : Bool :=
  let c := getCore s s.cur
  ((mapGet 0 (if c.cur1 then c.bank1 else c.bank0) (f.imm.toNat % 256)).getLsbD 40) && !hasFeature s 5

/-- Does the core lack the form (R150, R166, R263, R292, R320, R349)? The feature that depends on a register or a record is found by
the instruction itself (DEDUCED, log 92). -/
def formAbsent (s : State) (i : Instr) : Bool :=
  match i with
  | .vany _ _ => isSup s.cur
  | .vall _ _ => isSup s.cur
  | .tend _ _ => isSup s.cur
  | .svc _ _ => isSup s.cur
  | .aind _ _ => !hasFeature s 1
  | .sqchk _ _ => !hasFeature s 6
  | .mmt _ f => !hasFeature s 7 || wideAbsent s f
  | .matt _ f => !hasFeature s 7 || !hasFeature s 6 || wideAbsent s f
  | .csld _ _ => !hasFeature s 7
  | _ => false

/-- The reply field of a command (R329). -/
def replyField : Instr → Option (BitVec 14)
  | .sqopen _ f => some f.x
  | .sqclose _ f => some f.x
  | .sqnode _ f => some f.x
  | .sqchk _ f => some f.x
  | .sqacc _ f => some f.x
  | .sqaccAssistComplete _ f => some f.x
  | .sqsave _ f => some f.x
  | .sqrst _ f => some f.x
  | .kvgrow _ f => some f.x
  | .kvcommit _ f => some f.x
  | .kvroll _ f => some f.x
  | .kvexport _ f => some f.x
  | .kvpoolEnable _ f => some f.x
  | .kvpoolDisable _ f => some f.x
  | .kvpoolPin _ f => some f.x
  | .kvpoolUnpin _ f => some f.x
  | .kvpoolSetent _ f => some f.x
  | .kvpoolAlloc _ f => some f.x
  | .kvpoolFree _ f => some f.x
  | .pfxlook _ f => some f.x
  | .pfxins _ f => some f.x
  | .pfxinsAssistComplete _ f => some f.x
  | .pfxpin _ f => some f.x
  | .stcfgConfigure _ f => some f.x
  | .stcfgDisable _ f => some f.x
  | .stcfgEvict _ f => some f.x
  | .stcfgRestore _ f => some f.x
  | _ => none

/-- Is a system register's number one that exists on a kind of core (R350)? -/
def regMapped (sup : Bool) (n : Nat) : Bool :=
  decide (n < 8) || n == 0x12 || n == 0x13 || n == 0x16 || (decide (0x60 ≤ n) && decide (n ≤ 0x64)) ||
    (if sup then
      (decide (0x20 ≤ n) && decide (n ≤ 0x2B)) || n == 0x30 || n == 0x31 || (decide (0x38 ≤ n) && decide (n ≤ 0x47)) ||
        (decide (0x50 ≤ n) && decide (n ≤ 0x53)) || n == 0x58 || (decide (0x68 ≤ n) && decide (n ≤ 0x6A)) ||
        (decide (0x70 ≤ n) && decide (n ≤ 0x73)) || (decide (0x78 ≤ n) && decide (n ≤ 0x7B)) ||
        (decide (0x80 ≤ n) && decide (n ≤ 0x83)) || (decide (0x88 ≤ n) && decide (n ≤ 0x8F)) || (decide (0xC0 ≤ n) && decide (n ≤ 0xC3))
    else n == 0x10 || n == 0x11 || n == 0x14 || n == 0x15)

/-- Is a register one that an unprivileged MTSR may not write: one with RWP fields (R6, R348), or SPRQ (R64; DEDUCED, log 112)? -/
def regPriv (n : Nat) : Bool := [2, 3, 7, 0x12, 0x13, 0x16, 0x53, 0x64].contains n

/-- An operand field that only one kind of core allows: the reply line (R329), B of ICINV (R349), a register's number (R348). -/
def coreOperandOk (s : State) (i : Instr) : Bool :=
  match replyField i with
  | some x => !isSup s.cur || decide (x.toNat < 8)
  | none =>
    match i with
    | .icinv _ f => isSup s.cur || decide (f.b = 0)
    | .mfsr _ f => regMapped (isSup s.cur) (f.imm.toNat % 2 ^ 12)
    | .mtsr _ f => regMapped (isSup s.cur) (f.imm.toNat % 2 ^ 12) || (!isSup s.cur && regPriv (f.imm.toNat % 2 ^ 12))
    | _ => true

/-- A function of a KVPOOL that only the supervisor core may use: all but pin and unpin (R338). -/
def poolPriv (t : Task) (f : CmdF) : Bool := [0, 1, 4, 5, 6].contains ((scalarIn t f.a).toNat % 16)

/-- A form told by a register that only the supervisor core may use (R336, R338, R339, R379). -/
def formPriv (t : Task) : Instr → Bool
  | .sqacc _ f => (scalarIn t f.c).getLsbD 63
  | .sqaccAssistComplete _ _ => true
  | .pfxins _ f => (scalarIn t f.c).getLsbD 63
  | .pfxinsAssistComplete _ _ => true
  | .kvpoolEnable _ f => poolPriv t f
  | .kvpoolDisable _ f => poolPriv t f
  | .kvpoolSetent _ f => poolPriv t f
  | .kvpoolAlloc _ f => poolPriv t f
  | .kvpoolFree _ f => poolPriv t f
  | _ => false

/-- The register that tells a function which only the supervisor core may use (R336, R338 to R340). -/
def funReg : Instr → Option (BitVec 7)
  | .sqacc _ f => some f.c
  | .sqaccAssistComplete _ f => some f.c
  | .pfxins _ f => some f.c
  | .pfxinsAssistComplete _ f => some f.c
  | .kvpoolEnable _ f => some f.a
  | .kvpoolDisable _ f => some f.a
  | .kvpoolSetent _ f => some f.a
  | .kvpoolAlloc _ f => some f.a
  | .kvpoolFree _ f => some f.a
  | .stcfgConfigure _ f => some f.a
  | .stcfgDisable _ f => some f.a
  | .stcfgEvict _ f => some f.a
  | .stcfgRestore _ f => some f.a
  | _ => none

/-- Must a compute core's syllable wait before its register can tell whether the function is the supervisor core's? -/
def funPending (s : State) (i : Instr) : Bool :=
  match funReg i with
  | some r => !isSup s.cur && hazard s s.cur (curTask s) (sUses [r] [])
  | none => false

/-- Does the register that tells the function break its limits, which comes before PRIV (R227, R333, R337, R339, R340)? -/
def funBad (t : Task) : Instr → Bool
  | .sqacc _ f => decide (bits (scalarIn t f.c).toNat 62 32 ≠ 0)
  | .sqaccAssistComplete _ f => decide (bits (scalarIn t f.c).toNat 62 32 ≠ 0)
  | .pfxins _ f => decide (bits (scalarIn t f.c).toNat 62 32 ≠ 0)
  | .pfxinsAssistComplete _ f => decide (bits (scalarIn t f.c).toNat 62 32 ≠ 0)
  | .kvpoolEnable _ f => decide (16 ≤ (scalarIn t f.a).toNat)
  | .kvpoolDisable _ f => decide (16 ≤ (scalarIn t f.a).toNat)
  | .kvpoolSetent _ f => decide (16 ≤ (scalarIn t f.a).toNat)
  | .kvpoolAlloc _ f => decide (16 ≤ (scalarIn t f.a).toNat)
  | .kvpoolFree _ f => decide (16 ≤ (scalarIn t f.a).toNat)
  | .stcfgConfigure _ f => decide (4 ≤ (scalarIn t f.a).toNat)
  | .stcfgDisable _ f => decide (4 ≤ (scalarIn t f.a).toNat)
  | .stcfgEvict _ f => decide (4 ≤ (scalarIn t f.a).toNat)
  | .stcfgRestore _ f => decide (4 ≤ (scalarIn t f.a).toNat)
  | _ => false

/-- An instruction or form that only the supervisor core may use (R340, R343, R348, R349). -/
def needsPriv : Instr → Bool
  | .mtsr _ f => regPriv (f.imm.toNat % 2 ^ 12)
  | .eret _ _ => true
  | .halt _ _ => true
  | .watch _ f => decide (f.imm = 1)
  | .stcfgConfigure _ _ => true
  | .stcfgDisable _ _ => true
  | .stcfgEvict _ _ => true
  | .stcfgRestore _ _ => true
  | _ => false

/-- A decode fault of the bundle that acts, at a slot. -/
def bundleFault (s : State) (c : FCode) (slot : Nat) : FaultInfo := mkFault c (curTask s).pc slot

/-- The slot of an instruction's syllable, as a number. -/
def slotNum (i : Instr) : Nat := i.slot.getD 0xFF

/-- The decode faults of a syllable whose predicate is true, beside its opcode: the first of cause 4 (R227). -/
def decodeFault (stop : Option Bool) (s : State) (i : Instr) : Option FaultInfo :=
  let t := curTask s
  let n := slotNum i
  if !hasFeature s (slotFeature n) then some (bundleFault s .featureAbsent n)
  else if badPosition t stop i then some (bundleFault s .illegalBundle n)
  else if formAbsent s i then some (bundleFault s .featureAbsent n)
  else if !i.wf || !namesLive t (usesOf i) || !coreOperandOk s i then some (bundleFault s .illegalOperand n)
  else if isSup s.cur || funPending s i || !(needsPriv i || formPriv t i) then none
  else some (bundleFault s (if funBad t i then .illegalOperand else .priv) n)

/-- While a macro is queued or running, GAT and MTX syllables wait, and for MATT so do VEC syllables (R320). -/
def macroStall (t : Task) (slot : Nat) : Bool :=
  match slot with
  | 4 => t.macros.any (fun m => decide (m.kind = .matt))
  | 5 => !t.macros.isEmpty
  | 6 => !t.macros.isEmpty
  | _ => false

/-- Is an instruction WAITC, which may read a pending token (R284)? -/
def isWaitc : Instr → Bool
  | .waitc _ _ => true
  | _ => false

/-- The stall or the fault that a syllable's operands make (R33, R368): nothing when they can be read. -/
def operandHold (s : State) (i : Instr) : Option Act :=
  let t := curTask s
  if macroStall t (slotNum i) || hazard (if isWaitc i then { s with jobs := [] } else s) s.cur t (usesOf i) then some .stall
  else (readsPoison t (usesOf i)).map (fun a => .trap (mkFault .uncorrected a (slotNum i)))

/-- Run a syllable's effect behind its predicate, decode faults and operands, in the bundle of the agent `cur`. -/
def gate (i : Instr) (act : State → Act) (s : State) : Act :=
  if predicateHolds (curTask s) i.head then
    match decodeFault none s i with
    | some f => .trap f
    | none =>
      match operandHold s i with
      | some a => a
      | none => act s
  else .done s

/-- The outcome of a syllable by itself: its next state, or the exception it takes, or an unchanged state while it waits. -/
def runGated (i : Instr) (act : State → Act) (s : State) : Host.Outcome State Fault Refusal :=
  .next (settle s (gate i act s))

end Sys2Proof.Machine
end

