-- ==== Sys2Proof/Machine/Keccak.lean ====
section
/-!
DEFINITION. SHAKE256 of FIPS 202, which PHASH (R249) and the measurements of bring-up (R392) use.
-/
namespace Sys2Proof.Machine

/-- The state of Keccak-f[1600]: lane (x, y) at x + 5 y. -/
abbrev KState := List Word

/-- A lane of the state. -/
def kLane (a : KState) (x y : Nat) : Word := a.getD (x % 5 + 5 * (y % 5)) 0

/-- The state whose lane (x, y) is a function's value. -/
def kMap (f : Nat → Nat → Word) : KState := (List.range 25).map (fun i => f (i % 5) (i / 5))

/-- The rotation offsets of step rho, lane (x, y) at x + 5 y. -/
def kRho : List Nat :=
  [0, 1, 62, 28, 27, 36, 44, 6, 55, 20, 3, 10, 43, 25, 39, 41, 45, 15, 21, 8, 18, 2, 61, 56, 14]

/-- The round constants of step iota. -/
def kIota : List Word :=
  [0x0000000000000001, 0x0000000000008082, 0x800000000000808A, 0x8000000080008000, 0x000000000000808B, 0x0000000080000001,
   0x8000000080008081, 0x8000000000008009, 0x000000000000008A, 0x0000000000000088, 0x0000000080008009, 0x000000008000000A] ++
  [0x000000008000808B, 0x800000000000008B, 0x8000000000008089, 0x8000000000008003, 0x8000000000008002, 0x8000000000000080,
   0x000000000000800A, 0x800000008000000A, 0x8000000080008081, 0x8000000000008080, 0x0000000080000001, 0x8000000080008008]

/-- Steps theta, rho, pi, chi and iota of one round. -/
def kRound (a : KState) (rc : Word) : KState :=
  let c := (List.range 5).map (fun x => kLane a x 0 ^^^ kLane a x 1 ^^^ kLane a x 2 ^^^ kLane a x 3 ^^^ kLane a x 4)
  let d := (List.range 5).map (fun x => c.getD ((x + 4) % 5) 0 ^^^ (c.getD ((x + 1) % 5) 0).rotateLeft 1)
  let t := kMap (fun x y => kLane a x y ^^^ d.getD x 0)
  -- lane (x, y) of step pi is the rotated lane (x + 3 y, x)
  let b := kMap (fun x y => (kLane t (x + 3 * y) x).rotateLeft (kRho.getD ((x + 3 * y) % 5 + 5 * x) 0))
  let e := kMap (fun x y => kLane b x y ^^^ (~~~(kLane b (x + 1) y) &&& kLane b (x + 2) y))
  (e.getD 0 0 ^^^ rc) :: e.drop 1

/-- The permutation Keccak-f[1600]. -/
def keccakF (a : KState) : KState := kIota.foldl kRound a

/-- The words of a block of bytes, as lanes from lane 0. -/
def kWords : Nat → List Byte → List Word
  | 0, _ => []
  | n + 1, bs => word (leNat (bs.take 8)) :: kWords n (bs.drop 8)

/-- Absorb one block of 136 bytes. -/
def kAbsorb (a : KState) (block : List Byte) : KState :=
  let w := kWords 17 block
  keccakF ((List.range 25).map (fun i => a.getD i 0 ^^^ w.getD i 0))

/-- Split padded bytes into blocks and absorb them; `n` bounds the blocks. -/
def kAbsorbAll : Nat → KState → List Byte → KState
  | 0, a, _ => a
  | n + 1, a, bs => if bs.isEmpty then a else kAbsorbAll n (kAbsorb a (bs.take 136)) (bs.drop 136)

/-- The padding of SHAKE256 to a multiple of 136 bytes: 1F, zeros, and 80 on the last byte. -/
def kPad (len : Nat) : List Byte :=
  let n := 136 - len % 136
  if n = 1 then [0x9F] else 0x1F :: (List.replicate (n - 2) 0 ++ [0x80])

/-- Bytes of the state's rate part. -/
def kBytes (a : KState) : List Byte := (a.take 17).flatMap (fun w => leBytes 8 w.toNat)

/-- The first `out` bytes (at most 136) of SHAKE256 of a message. -/
def shake256 (msg : List Byte) (out : Nat) : List Byte :=
  let p := msg ++ kPad msg.length
  (kBytes (kAbsorbAll (p.length / 136 + 1) (List.replicate 25 0) p)).take out

end Sys2Proof.Machine
end

