-- ==== Sys2Proof/Machine/Scalar.lean ====
section
/-!
DEFINITION. The scalar slots SCA and SCB (spec 12_scalar_control.md R240 to R249). `sylX` is the effect of a syllable whose
predicate holds; `execX` puts it behind its gate.
-/
namespace Sys2Proof.Machine

/-- A scalar result of SCA or SCB: its register, and its ring, which it enters even when the register is s0 (R226, R240). -/
def scalarOut (p : Port) (lat : Nat) (d : BitVec 7) (x : Word) (s : State) : Act :=
  .done (pushScalar s lat p.slot d.toNat x (some (portRing p)))

/-- A flag result, L = 1 (R237). -/
def flagOut (slot : Nat) (f : Nat) (x : Bool) (s : State) : Act := .done (pushDue s 1 slot (.flag f x))

/-- A register form of two operands (R241, R243). -/
def scalar2 (lat : Nat) (op : Word → Word → Word) (p : Port) (f : SReg) (s : State) : Act :=
  scalarOut p lat f.d (op (scalarIn (curTask s) f.a) (scalarIn (curTask s) f.b)) s

/-- A register form of one operand (R247). -/
def scalar1 (op : Word → Word) (p : Port) (f : SReg) (s : State) : Act :=
  scalarOut p 1 f.d (op (scalarIn (curTask s) f.a)) s

/-- An immediate form, with the immediate sign-extended (R242). -/
def scalarImm (op : Word → Word → Word) (p : Port) (f : SImm) (s : State) : Act :=
  scalarOut p 1 f.d (op (scalarIn (curTask s) f.a) (f.imm.signExtend 64)) s

/-- A shift by the immediate (R242). -/
def shiftImm (op : Word → Nat → Word) (p : Port) (f : SImm) (s : State) : Act :=
  scalarOut p 1 f.d (op (scalarIn (curTask s) f.a) (f.imm.toNat % 64)) s

/-- The number of a shift: bits [5:0] (R241). -/
def shiftOf (b : Word) : Nat := b.toNat % 64

/-- Signed division rounded toward zero, with its two defined corners (R243). -/
def divS (a b : Word) : Word :=
  if b = 0 then BitVec.allOnes 64 else if a.toInt = -(2 ^ 63) ∧ b.toInt = -1 then a else BitVec.ofInt 64 (a.toInt.tdiv b.toInt)

/-- Unsigned division (R243). -/
def divU (a b : Word) : Word := if b = 0 then BitVec.allOnes 64 else BitVec.ofNat 64 (a.toNat / b.toNat)

/-- Signed remainder (R243). -/
def remS (a b : Word) : Word :=
  if b = 0 then a else if a.toInt = -(2 ^ 63) ∧ b.toInt = -1 then 0 else BitVec.ofInt 64 (a.toInt.tmod b.toInt)

/-- Unsigned remainder (R243). -/
def remU (a b : Word) : Word := if b = 0 then a else BitVec.ofNat 64 (a.toNat % b.toNat)

/-- Bits [127:64] of the signed product (R243). -/
def mulHigh (a b : Word) : Word := BitVec.ofInt 64 (a.toInt * b.toInt / 2 ^ 64)

/-- Bits [127:64] of the unsigned product (R243). -/
def mulHighU (a b : Word) : Word := BitVec.ofNat 64 (a.toNat * b.toNat / 2 ^ 64)

/-- The 128-bit value with A in the high half (R244). -/
def pair (a b : Word) : Nat := a.toNat * 2 ^ 64 + b.toNat

/-- The amount of a funnel shift (R244). -/
def funnelBy (t : Task) (f : SReg) : Nat :=
  if f.x.getLsbD 6 then f.x.toNat % 64 else shiftOf (scalarIn t f.c)

/-- Bits [127:64] of A:B shifted left (R244). -/
def funnelLeft (a b : Word) (n : Nat) : Word := BitVec.ofNat 64 (pair a b * 2 ^ n / 2 ^ 64)

/-- Bits [63:0] of A:B shifted right (R244). -/
def funnelRight (a b : Word) (n : Nat) : Word := BitVec.ofNat 64 (pair a b / 2 ^ n)

/-- The lowest bit of a bit field (R246). -/
def fieldPos (x : BitVec 17) : Nat := x.toNat % 64
/-- The length of a bit field (R246). -/
def fieldLen (x : BitVec 17) : Nat := x.toNat / 64 % 64 + 1
/-- The bits of a field, zero-extended (R246). -/
def fieldGet (a : Word) (x : BitVec 17) : Nat := a.toNat / 2 ^ fieldPos x % 2 ^ fieldLen x
/-- A with a field replaced (R246). -/
def fieldPut (a b : Word) (x : BitVec 17) : Word :=
  BitVec.ofNat 64 (setBits a.toNat (fieldPos x + fieldLen x - 1) (fieldPos x) b.toNat)

/-- Leading zero bits among the low `n`. -/
def leadZeros (a : Word) : Nat → Nat
  | 0 => 0
  | n + 1 => if a.getLsbD n then 0 else leadZeros a n + 1

/-- Trailing zero bits from bit `64 - n`. -/
def trailZeros (a : Word) : Nat → Nat
  | 0 => 0
  | n + 1 => if a.getLsbD (63 - n) then 0 else trailZeros a n + 1

/-- The number of set bits among the low `n`. -/
def popCount (a : Nat) : Nat → Nat
  | 0 => 0
  | n + 1 => (if a.testBit n then 1 else 0) + popCount a n

/-- The bytes reversed (R247). -/
def byteSwap (a : Word) : Word := BitVec.ofNat 64 (leNat (leBytes 8 a.toNat).reverse)

/-- The message of a prefix-key link (R249). -/
def phashMsg (hash tag : Word) (ids : List Nat) : List Byte :=
  leBytes 8 hash.toNat ++ leBytes 2 tag.toNat ++ ids.flatMap (leBytes 4)

/-- One link of a prefix-key chain (R249). -/
def prefixHash (hash tag : Word) (ids : List Nat) : Word := word (leNat (shake256 (phashMsg hash tag ids) 8))

/-- The 16 token ids in eight registers, two to a register (R249). -/
def tokenIds (t : Task) (b : Nat) : List Nat :=
  (List.range 16).map (fun j => (scalarCode t (b + j / 2)).toNat / 2 ^ (32 * (j % 2)) % 2 ^ 32)

/-- ADD: A + (B << n), n = X[2:0] (R241). -/
def sylAdd (p : Port) (f : SReg) (s : State) : Act :=
  scalar2 1 (fun a b => a + b <<< (f.x.toNat % 8)) p f s

/-- ADD with its gate. -/
def execAdd (p : Port) (h : Head) (f : SReg) (s : State) : Host.Outcome State Fault Refusal :=
  runGated (.add p h f) (sylAdd p f) s

/-- SUB: A − (B << n) (R241). -/
def sylSub (p : Port) (f : SReg) (s : State) : Act :=
  scalar2 1 (fun a b => a - b <<< (f.x.toNat % 8)) p f s

/-- SUB with its gate. -/
def execSub (p : Port) (h : Head) (f : SReg) (s : State) : Host.Outcome State Fault Refusal :=
  runGated (.sub p h f) (sylSub p f) s

/-- ADDI (R242). -/
def sylAddi (p : Port) (f : SImm) (s : State) : Act :=
  scalarImm (fun a b => a + b) p f s

/-- ADDI with its gate. -/
def execAddi (p : Port) (h : Head) (f : SImm) (s : State) : Host.Outcome State Fault Refusal :=
  runGated (.addi p h f) (sylAddi p f) s

/-- MUL: the low half of the product, L = 3 (R243). -/
def sylMul (p : Port) (f : SReg) (s : State) : Act :=
  scalar2 3 (fun a b => a * b) p f s

/-- MUL with its gate. -/
def execMul (p : Port) (h : Head) (f : SReg) (s : State) : Host.Outcome State Fault Refusal :=
  runGated (.mul p h f) (sylMul p f) s

/-- MULH (R243). -/
def sylMulh (p : Port) (f : SReg) (s : State) : Act :=
  scalar2 3 mulHigh p f s

/-- MULH with its gate. -/
def execMulh (p : Port) (h : Head) (f : SReg) (s : State) : Host.Outcome State Fault Refusal :=
  runGated (.mulh p h f) (sylMulh p f) s

/-- MULHU (R243). -/
def sylMulhu (p : Port) (f : SReg) (s : State) : Act :=
  scalar2 3 mulHighU p f s

/-- MULHU with its gate. -/
def execMulhu (p : Port) (h : Head) (f : SReg) (s : State) : Host.Outcome State Fault Refusal :=
  runGated (.mulhu p h f) (sylMulhu p f) s

/-- DIV, SCA only, L = 24 (R243). -/
def sylDiv (f : SReg) (s : State) : Act :=
  scalar2 24 divS .sca f s

/-- DIV with its gate. -/
def execDiv (h : Head) (f : SReg) (s : State) : Host.Outcome State Fault Refusal :=
  runGated (.div h f) (sylDiv f) s

/-- DIVU, SCA only, L = 24 (R243). -/
def sylDivu (f : SReg) (s : State) : Act :=
  scalar2 24 divU .sca f s

/-- DIVU with its gate. -/
def execDivu (h : Head) (f : SReg) (s : State) : Host.Outcome State Fault Refusal :=
  runGated (.divu h f) (sylDivu f) s

/-- REM, SCA only, L = 24 (R243). -/
def sylRem (f : SReg) (s : State) : Act :=
  scalar2 24 remS .sca f s

/-- REM with its gate. -/
def execRem (h : Head) (f : SReg) (s : State) : Host.Outcome State Fault Refusal :=
  runGated (.rem h f) (sylRem f) s

/-- REMU, SCA only, L = 24 (R243). -/
def sylRemu (f : SReg) (s : State) : Act :=
  scalar2 24 remU .sca f s

/-- REMU with its gate. -/
def execRemu (h : Head) (f : SReg) (s : State) : Host.Outcome State Fault Refusal :=
  runGated (.remu h f) (sylRemu f) s

/-- ADDPC: the bundle address plus the immediate (R248). -/
def sylAddpc (p : Port) (f : SImm) (s : State) : Act :=
  scalarOut p 1 f.d ((curTask s).pc + f.imm.signExtend 64) s

/-- ADDPC with its gate. -/
def execAddpc (p : Port) (h : Head) (f : SImm) (s : State) : Host.Outcome State Fault Refusal :=
  runGated (.addpc p h f) (sylAddpc p f) s

/-- AND (R241). -/
def sylAnd (p : Port) (f : SReg) (s : State) : Act :=
  scalar2 1 (fun a b => a &&& b) p f s

/-- AND with its gate. -/
def execAnd (p : Port) (h : Head) (f : SReg) (s : State) : Host.Outcome State Fault Refusal :=
  runGated (.and p h f) (sylAnd p f) s

/-- OR (R241). -/
def sylOr (p : Port) (f : SReg) (s : State) : Act :=
  scalar2 1 (fun a b => a ||| b) p f s

/-- OR with its gate. -/
def execOr (p : Port) (h : Head) (f : SReg) (s : State) : Host.Outcome State Fault Refusal :=
  runGated (.or p h f) (sylOr p f) s

/-- XOR (R241). -/
def sylXor (p : Port) (f : SReg) (s : State) : Act :=
  scalar2 1 (fun a b => a ^^^ b) p f s

/-- XOR with its gate. -/
def execXor (p : Port) (h : Head) (f : SReg) (s : State) : Host.Outcome State Fault Refusal :=
  runGated (.xor p h f) (sylXor p f) s

/-- ANDN (R241). -/
def sylAndn (p : Port) (f : SReg) (s : State) : Act :=
  scalar2 1 (fun a b => a &&& ~~~b) p f s

/-- ANDN with its gate. -/
def execAndn (p : Port) (h : Head) (f : SReg) (s : State) : Host.Outcome State Fault Refusal :=
  runGated (.andn p h f) (sylAndn p f) s

/-- ANDI (R242). -/
def sylAndi (p : Port) (f : SImm) (s : State) : Act :=
  scalarImm (fun a b => a &&& b) p f s

/-- ANDI with its gate. -/
def execAndi (p : Port) (h : Head) (f : SImm) (s : State) : Host.Outcome State Fault Refusal :=
  runGated (.andi p h f) (sylAndi p f) s

/-- ORI (R242). -/
def sylOri (p : Port) (f : SImm) (s : State) : Act :=
  scalarImm (fun a b => a ||| b) p f s

/-- ORI with its gate. -/
def execOri (p : Port) (h : Head) (f : SImm) (s : State) : Host.Outcome State Fault Refusal :=
  runGated (.ori p h f) (sylOri p f) s

/-- XORI (R242). -/
def sylXori (p : Port) (f : SImm) (s : State) : Act :=
  scalarImm (fun a b => a ^^^ b) p f s

/-- XORI with its gate. -/
def execXori (p : Port) (h : Head) (f : SImm) (s : State) : Host.Outcome State Fault Refusal :=
  runGated (.xori p h f) (sylXori p f) s

/-- SHL: by B[5:0] (R241). -/
def sylShl (p : Port) (f : SReg) (s : State) : Act :=
  scalar2 1 (fun a b => a <<< shiftOf b) p f s

/-- SHL with its gate. -/
def execShl (p : Port) (h : Head) (f : SReg) (s : State) : Host.Outcome State Fault Refusal :=
  runGated (.shl p h f) (sylShl p f) s

/-- SHR: by B[5:0] (R241). -/
def sylShr (p : Port) (f : SReg) (s : State) : Act :=
  scalar2 1 (fun a b => a >>> shiftOf b) p f s

/-- SHR with its gate. -/
def execShr (p : Port) (h : Head) (f : SReg) (s : State) : Host.Outcome State Fault Refusal :=
  runGated (.shr p h f) (sylShr p f) s

/-- SAR: by B[5:0] (R241). -/
def sylSar (p : Port) (f : SReg) (s : State) : Act :=
  scalar2 1 (fun a b => a.sshiftRight (shiftOf b)) p f s

/-- SAR with its gate. -/
def execSar (p : Port) (h : Head) (f : SReg) (s : State) : Host.Outcome State Fault Refusal :=
  runGated (.sar p h f) (sylSar p f) s

/-- SHLI (R242). -/
def sylShli (p : Port) (f : SImm) (s : State) : Act :=
  shiftImm (fun a n => a <<< n) p f s

/-- SHLI with its gate. -/
def execShli (p : Port) (h : Head) (f : SImm) (s : State) : Host.Outcome State Fault Refusal :=
  runGated (.shli p h f) (sylShli p f) s

/-- SHRI (R242). -/
def sylShri (p : Port) (f : SImm) (s : State) : Act :=
  shiftImm (fun a n => a >>> n) p f s

/-- SHRI with its gate. -/
def execShri (p : Port) (h : Head) (f : SImm) (s : State) : Host.Outcome State Fault Refusal :=
  runGated (.shri p h f) (sylShri p f) s

/-- SARI (R242). -/
def sylSari (p : Port) (f : SImm) (s : State) : Act :=
  shiftImm (fun a n => a.sshiftRight n) p f s

/-- SARI with its gate. -/
def execSari (p : Port) (h : Head) (f : SImm) (s : State) : Host.Outcome State Fault Refusal :=
  runGated (.sari p h f) (sylSari p f) s

/-- FSHL (R244). -/
def sylFshl (p : Port) (f : SReg) (s : State) : Act :=
  scalar2 1 (fun a b => funnelLeft a b (funnelBy (curTask s) f)) p f s

/-- FSHL with its gate. -/
def execFshl (p : Port) (h : Head) (f : SReg) (s : State) : Host.Outcome State Fault Refusal :=
  runGated (.fshl p h f) (sylFshl p f) s

/-- FSHR (R244). -/
def sylFshr (p : Port) (f : SReg) (s : State) : Act :=
  scalar2 1 (fun a b => funnelRight a b (funnelBy (curTask s) f)) p f s

/-- FSHR with its gate. -/
def execFshr (p : Port) (h : Head) (f : SReg) (s : State) : Host.Outcome State Fault Refusal :=
  runGated (.fshr p h f) (sylFshr p f) s

/-- CMP: a condition, combined with the old flag (R245). -/
def sylCmp (p : Port) (f : SReg) (s : State) : Act :=
  flagOut p.slot f.f.toNat
    (cmpCombine (f.x.toNat / 8 % 4) (flagReg (curTask s) f.f.toNat)
      (cmpCond (f.x.toNat % 8) (scalarIn (curTask s) f.a) (scalarIn (curTask s) f.b))) s

/-- CMP with its gate. -/
def execCmp (p : Port) (h : Head) (f : SReg) (s : State) : Host.Outcome State Fault Refusal :=
  runGated (.cmp p h f) (sylCmp p f) s

/-- CMPI: the condition in D[48:46], the flag in D[45:42] (R245). -/
def sylCmpi (p : Port) (f : SImm) (s : State) : Act :=
  flagOut p.slot (f.d.toNat % 16)
    (cmpCond (f.d.toNat / 16) (scalarIn (curTask s) f.a) (f.imm.signExtend 64)) s

/-- CMPI with its gate. -/
def execCmpi (p : Port) (h : Head) (f : SImm) (s : State) : Host.Outcome State Fault Refusal :=
  runGated (.cmpi p h f) (sylCmpi p f) s

/-- SEL (R241). -/
def sylSel (p : Port) (f : SReg) (s : State) : Act :=
  scalar2 1 (fun a b => if flagReg (curTask s) f.f.toNat then a else b) p f s

/-- SEL with its gate. -/
def execSel (p : Port) (h : Head) (f : SReg) (s : State) : Host.Outcome State Fault Refusal :=
  runGated (.sel p h f) (sylSel p f) s

/-- MIN (R241). -/
def sylMin (p : Port) (f : SReg) (s : State) : Act :=
  scalar2 1 (fun a b => if a.toInt < b.toInt then a else b) p f s

/-- MIN with its gate. -/
def execMin (p : Port) (h : Head) (f : SReg) (s : State) : Host.Outcome State Fault Refusal :=
  runGated (.min p h f) (sylMin p f) s

/-- MAX (R241). -/
def sylMax (p : Port) (f : SReg) (s : State) : Act :=
  scalar2 1 (fun a b => if a.toInt < b.toInt then b else a) p f s

/-- MAX with its gate. -/
def execMax (p : Port) (h : Head) (f : SReg) (s : State) : Host.Outcome State Fault Refusal :=
  runGated (.max p h f) (sylMax p f) s

/-- MINU (R241). -/
def sylMinu (p : Port) (f : SReg) (s : State) : Act :=
  scalar2 1 (fun a b => if a.toNat < b.toNat then a else b) p f s

/-- MINU with its gate. -/
def execMinu (p : Port) (h : Head) (f : SReg) (s : State) : Host.Outcome State Fault Refusal :=
  runGated (.minu p h f) (sylMinu p f) s

/-- MAXU (R241). -/
def sylMaxu (p : Port) (f : SReg) (s : State) : Act :=
  scalar2 1 (fun a b => if a.toNat < b.toNat then b else a) p f s

/-- MAXU with its gate. -/
def execMaxu (p : Port) (h : Head) (f : SReg) (s : State) : Host.Outcome State Fault Refusal :=
  runGated (.maxu p h f) (sylMaxu p f) s

/-- BFX: a field, sign-extended (R246). -/
def sylBfx (p : Port) (f : SReg) (s : State) : Act :=
  scalar1 (fun a => BitVec.ofInt 64 (signed (fieldLen f.x) (fieldGet a f.x))) p f s

/-- BFX with its gate. -/
def execBfx (p : Port) (h : Head) (f : SReg) (s : State) : Host.Outcome State Fault Refusal :=
  runGated (.bfx p h f) (sylBfx p f) s

/-- BFXU: a field, zero-extended (R246). -/
def sylBfxu (p : Port) (f : SReg) (s : State) : Act :=
  scalar1 (fun a => word (fieldGet a f.x)) p f s

/-- BFXU with its gate. -/
def execBfxu (p : Port) (h : Head) (f : SReg) (s : State) : Host.Outcome State Fault Refusal :=
  runGated (.bfxu p h f) (sylBfxu p f) s

/-- BFI: A with a field replaced (R246). -/
def sylBfi (p : Port) (f : SReg) (s : State) : Act :=
  scalar2 1 (fun a b => fieldPut a b f.x) p f s

/-- BFI with its gate. -/
def execBfi (p : Port) (h : Head) (f : SReg) (s : State) : Host.Outcome State Fault Refusal :=
  runGated (.bfi p h f) (sylBfi p f) s

/-- CLZ (R247). -/
def sylClz (p : Port) (f : SReg) (s : State) : Act :=
  scalar1 (fun a => word (leadZeros a 64)) p f s

/-- CLZ with its gate. -/
def execClz (p : Port) (h : Head) (f : SReg) (s : State) : Host.Outcome State Fault Refusal :=
  runGated (.clz p h f) (sylClz p f) s

/-- CTZ (R247). -/
def sylCtz (p : Port) (f : SReg) (s : State) : Act :=
  scalar1 (fun a => word (trailZeros a 64)) p f s

/-- CTZ with its gate. -/
def execCtz (p : Port) (h : Head) (f : SReg) (s : State) : Host.Outcome State Fault Refusal :=
  runGated (.ctz p h f) (sylCtz p f) s

/-- POPC (R247). -/
def sylPopc (p : Port) (f : SReg) (s : State) : Act :=
  scalar1 (fun a => word (popCount a.toNat 64)) p f s

/-- POPC with its gate. -/
def execPopc (p : Port) (h : Head) (f : SReg) (s : State) : Host.Outcome State Fault Refusal :=
  runGated (.popc p h f) (sylPopc p f) s

/-- BREV (R247). -/
def sylBrev (p : Port) (f : SReg) (s : State) : Act :=
  scalar1 (fun a => a.reverse) p f s

/-- BREV with its gate. -/
def execBrev (p : Port) (h : Head) (f : SReg) (s : State) : Host.Outcome State Fault Refusal :=
  runGated (.brev p h f) (sylBrev p f) s

/-- BSWAP (R247). -/
def sylBswap (p : Port) (f : SReg) (s : State) : Act :=
  scalar1 byteSwap p f s

/-- BSWAP with its gate. -/
def execBswap (p : Port) (h : Head) (f : SReg) (s : State) : Host.Outcome State Fault Refusal :=
  runGated (.bswap p h f) (sylBswap p f) s

/-- LI: the 42-bit immediate, sign-extended (R248). -/
def sylLi (p : Port) (f : SLong) (s : State) : Act :=
  scalarOut p 1 f.d (f.imm.signExtend 64) s

/-- LI with its gate. -/
def execLi (p : Port) (h : Head) (f : SLong) (s : State) : Host.Outcome State Fault Refusal :=
  runGated (.li p h f) (sylLi p f) s

/-- LIH: bits [63:42] replaced (R248). -/
def sylLih (p : Port) (f : SLong) (s : State) : Act :=
  scalarOut p 1 f.d
    (word (f.imm.toNat % 2 ^ 22 * 2 ^ 42 + (scalarIn (curTask s) f.d).toNat % 2 ^ 42)) s

/-- LIH with its gate. -/
def execLih (p : Port) (h : Head) (f : SLong) (s : State) : Host.Outcome State Fault Refusal :=
  runGated (.lih p h f) (sylLih p f) s

/-- PHASH, L = 12 (R249). -/
def sylPhash (f : SReg) (s : State) : Act :=
  scalarOut .sca 12 f.d (prefixHash (scalarIn (curTask s) f.a) (scalarIn (curTask s) f.c) (tokenIds (curTask s) f.b.toNat)) s

/-- PHASH with its gate. -/
def execPhash (h : Head) (f : SReg) (s : State) : Host.Outcome State Fault Refusal :=
  runGated (.phash h f) (sylPhash f) s

end Sys2Proof.Machine
end

