-- ==== Sys2Proof/Machine/Translate.lean ====
section
/-!
DEFINITION. Virtual addresses, page tables, the translation cache, handles made from leaves, and instruction fetch
(spec 04_translation.md R72 to R78 and R85 to R89, 01_address_spaces.md R17 and R22, 11_bundle_encoding.md R219).
-/
namespace Sys2Proof.Machine

/-! ### Limits of the handle spaces (R17) -/

/-- The canonical rule: bits [63:52] equal bit 51 (R72). -/
def canonical (va : Word) : Bool := decide ((va.setWidth 52).signExtend 64 = va)

/-- A word of the control window (R381). -/
def windowReg (s : State) (off : Nat) : Nat := (mapGet 0 s.pkg.window off).toNat

/-- The end, exclusive, of an enabled CXL decoder's range; 0 while it is disabled (R386). -/
def decoderEnd (s : State) (p : Nat) : Nat :=
  let w := windowReg s (0x200 + 16 * p)
  if bit w 63 then w % 2 ^ 42 + windowReg s (0x208 + 16 * p) * 2 ^ 28 else 0

/-- Does an enabled CXL decoder cover a range (R386)? -/
def decoderCovers (s : State) (p a n : Nat) : Bool :=
  let w := windowReg s (0x200 + 16 * p)
  bit w 63 && decide (w % 2 ^ 42 ≤ a) && decide (a + n ≤ decoderEnd s p)

/-- The end, exclusive, of CXL memory: the top of the higher enabled range, at most 4 TiB (R17). -/
def cxlEnd (s : State) : Nat := min (max (decoderEnd s 0) (decoderEnd s 1)) (2 ^ 42)

/-- The end, exclusive, of host memory (R17, R381). -/
def hostEnd (s : State) : Nat :=
  let w := windowReg s 0x100
  if bit w 63 then w % 2 ^ 52 + 1 else 0

/-! ### Page tables (R73 to R76) -/

/-- The bytes of a page by its size code. -/
def pageSize (size : Nat) : Nat := if size = 0 then 2 ^ 16 else if size = 1 then 2 ^ 21 else 2 ^ 30

/-- Is an entry a well-formed leaf of a size whose range stays in its space (R74, R76)? -/
def leafOk (s : State) (size leaf : Nat) : Bool :=
  let spc := bits leaf 61 60
  let pa := bits leaf 51 16 * 2 ^ 16
  decide (bits leaf 63 62 = 2) && decide (spc ≠ 3) && decide (bits leaf 56 52 = 0) && decide (bits leaf 11 0 = 0) &&
    decide (pa % pageSize size = 0) &&
    (if spc = 0 then decide (pa < 2 ^ 36)
     else if spc = 1 then decide (bits leaf 59 57 = 0) && decide (pa + pageSize size ≤ cxlEnd s)
     else decide (bits leaf 59 57 = 0) && decide (pa + pageSize size ≤ hostEnd s))

/-- A level of the tables: the lowest VA bit of its index, the entries, the leaf size it admits, the size of the next table. -/
structure Level where
  shift : Nat
  entries : Nat
  leaf : Option Nat
  next : Option Nat
  deriving DecidableEq, Repr

/-- The four levels (R73, R75). -/
def tableLevels : List Level :=
  [⟨41, 2048, none, some (2 ^ 14)⟩, ⟨30, 2048, some 2, some (2 ^ 12)⟩, ⟨21, 512, some 1, some (2 ^ 8)⟩,
    ⟨16, 32, some 0, none⟩]

/-- What an entry of a level means for a walk: the table to read next, or the walk's end (R74 to R76). -/
def entryEnd (s : State) (l : Level) (e : Nat) : Except WalkEnd Nat :=
  if bits e 63 62 = 2 then
    match l.leaf with
    | some size => if leafOk s size e then .error (.leaf size e) else .error .failed
    | none => .error .failed
  else if bits e 63 62 = 1 then
    match l.next with
    | some n =>
      if bits e 61 60 = 0 ∧ bits e 56 36 = 0 ∧ bits e 7 0 = 0 ∧ e % 2 ^ 36 % n = 0 then .ok (tmFlat (bits e 59 57) (e % 2 ^ 36))
      else .error .failed
    | none => .error .failed
  else .error .failed

/-- The flat address of the entry that a walk for an address reads in a table of a level (R73). -/
def walkEntry (l : Level) (table va : Nat) : Nat := table + va / 2 ^ l.shift % l.entries * 8

/-- One load of a walk: the table to read next, or the walk's end. An entry that cannot be read ends it (R58, R65). -/
def walkLoad (s : State) (l : Level) (table va : Nat) : Except WalkEnd Nat :=
  let a := walkEntry l table va
  if badRange s a 8 then .error (.lost a) else entryEnd s l (readNat s a 8)

/-- Walk the tables from a level's table in one go, as the device's own translations do: the leaf's size and word, or none where
the walk fails (R75, R76). -/
def walkFrom (s : State) (va : Nat) : List Level → Nat → Option (Nat × Nat)
  | [], _ => none
  | l :: ls, table =>
    match walkLoad s l table va with
    | .ok next => walkFrom s va ls next
    | .error (.leaf size e) => some (size, e)
    | .error .failed => none
    | .error (.lost _) => none

/-- The root table of a context on a tower, while it has page tables (R78). -/
def rootTable (s : State) (t : BitVec 3) (ctx : BitVec 12) : Option Nat :=
  let r := (mapGet 0 (getTower s t).vroot ctx.toNat).toNat
  if bit r 63 then some (tmFlat (bits r 62 60) (bits r 35 14 * 2 ^ 14)) else none

/-- Walk a context's tables from its root on a tower (R78). -/
def walk (s : State) (t : BitVec 3) (ctx : BitVec 12) (va : Word) : Option (Nat × Nat) :=
  (rootTable s t ctx).bind (walkFrom s (va.toNat % 2 ^ 52) tableLevels)

/-! ### The translation cache (R86) -/

/-- The VA bits [51:16] of the page of a size that holds an address. -/
def vpageOf (size : Nat) (va : Word) : BitVec 36 := BitVec.ofNat 36 (va.toNat % 2 ^ 52 / pageSize size * pageSize size / 2 ^ 16)

/-- Does a cached translation cover an address of a context? -/
def tcHit (ctx : BitVec 12) (va : Word) (e : TcEntry) : Bool :=
  decide (e.ctx = ctx) && decide (e.vpage = vpageOf e.size.toNat va)

/-- Look a translation up. -/
def tcFind (ctx : BitVec 12) (va : Word) (l : List TcEntry) : Option TcEntry := l.find? (tcHit ctx va)

/-- Put a translation into a cache of 128; of a full one a drawn entry leaves. -/
def tcInsert (draw : Nat) (e : TcEntry) (l : List TcEntry) : List TcEntry :=
  e :: (if l.length < 128 then l else l.eraseIdx (draw % l.length))

/-- Fill the cache of a core; which entry leaves a full one is free, as R86 states no policy (DESIGN CHOICE, log 15). -/
def tcFill (s : State) (a : Agent) (e : TcEntry) : State :=
  modCore { s with free := s.free + 1 } a (fun c => { c with tc := tcInsert (Config.freeNat s.free) e c.tc })

/-! ### Walkers (R77, R87, R89) -/

/-- What a core gets for an address: its translation, the failure of its walk, an entry of the tables that could not be read, or
nothing yet. -/
inductive Trans where
  | hit (e : TcEntry)
  | failed
  | lost (adr : Nat)
  | miss
  deriving DecidableEq, Repr

/-- A translation for a core: from its cache, or the end of a walk that it waited for. -/
def translate (s : State) (a : Agent) (ctx : BitVec 12) (va : Word) : Trans :=
  match tcFind ctx va (getCore s a).tc with
  | some e => .hit e
  | none =>
    match s.walks.find? (fun w => walkFor a ctx va w && w.who.contains a && w.done.isSome) with
    | some w =>
      (match w.done with
       | some (.lost x) => .lost x
       | _ => .failed)
    | none => .miss

/-- Does a core wait for a walk of an address already, one begun in hardware mode (R379)? -/
def walkAsked (s : State) (a : Agent) (ctx : BitVec 12) (va : Word) : Bool := s.walks.any (fun w => walkFor a ctx va w && w.who.contains a)

/-- The walks of a die that run. -/
def walksRunning (s : State) (t : BitVec 3) (layer : BitVec 1) : List Walk :=
  s.walks.filter (fun w => decide (w.tower = t) && decide (w.layer = layer) && w.running)

/-- May a queued walk take a walker: one of the 128 of its die is free, and the walk is the first in its queue, misses of fetches
ahead of those of XLATE (R89)? -/
def walkFirst (s : State) (w : Walk) : Bool :=
  let q := walksQueued s w.tower w.layer
  decide ((walksRunning s w.tower w.layer).length < 128) &&
    decide (((q.filter Walk.fetch ++ q.filter (fun x => !x.fetch)).head?.map Walk.id) = some w.id)

/-- Put back a walk. -/
def putWalk (s : State) (w : Walk) : State := { s with walks := s.walks.map (fun x => if x.id = w.id then w else x) }

/-- Does an invalidation name a page of a context? `vpage` is VA [51:16], `size` its page size. -/
def xinvHits (x : XinvPend) (ctx : Nat) (vpage size : Nat) : Bool :=
  if x.scope = 2 then true
  else
    decide (ctx = x.ctx.toNat) &&
      (decide (x.scope = 1) ||
        (let lo := x.vpage.toNat * 2 ^ 16 / pageSize x.size.toNat * pageSize x.size.toNat
         decide (vpage * 2 ^ 16 < lo + pageSize x.size.toNat) && decide (lo < vpage * 2 ^ 16 + pageSize size)))

/-- Did an invalidation that a walk met name the page that it found, of a size, or its region where it found none (R87)? -/
def walkStale (w : Walk) (size : Nat) : Bool :=
  w.met.any (fun x => xinvHits x w.ctx.toNat (vpageOf size (BitVec.ofNat 64 (w.region.toNat * 2 ^ 16))).toNat size)

/-- The end of a walk: a translation fills the cache of every core that waited, unless an invalidation met the walk, and a failure
stays for those that still wait to learn of (R86, R87). -/
def endWalk (s : State) (w : Walk) (r : WalkEnd) : State :=
  let gone := { s with walks := s.walks.filter (fun x => x.id ≠ w.id) }
  match r with
  | .leaf size leaf =>
    if walkStale w size then gone
    else
      let va := BitVec.ofNat 64 (w.region.toNat * 2 ^ 16)
      w.who.foldl (fun s a => tcFill s a ⟨w.ctx, BitVec.ofNat 2 size, vpageOf size va, BitVec.ofNat 64 leaf⟩) gone
  | _ => if walkStale w 0 || w.who.isEmpty then gone else putWalk s { w with running := false, done := some r }

/-- Is a spire's region held by a retirement between its steps 1 and 2 (R65)? -/
def spireHeld (s : State) (a : Nat) : Bool :=
  isTm a &&
    (let w := getTower s (BitVec.ofNat 3 (tmTower a))
     w.retires.any (fun r =>
      !r.moved && (decide (r.spire.toNat = tmSpire a) || decide (mapGet? w.carriers (tmSpire a) = some r.spire.toNat))))

/-- The columns whose spire carries GS traffic between an agent and an address from one layer to the other (R34, R36, R37): the
issuing core's, where the traffic leaves for another tower from the check die or for the other layer, and the target core's, where
it descends in another tower. -/
def laneSpires (who : Agent) (a : Nat) : List (BitVec 3 × Nat) :=
  let t' := BitVec.ofNat 3 (a / 2 ^ 29)
  let c' := BitVec.ofNat 6 (bits a 27 22)
  let layer := if bit a 28 then 0 else coreLayer c'
  let down := if agentTower who ≠ t' ∧ layer = 1 then [(t', coreSpire c')] else []
  match who with
  | .sup _ => down
  | .core t c => (if coreLayer c ≠ (if t = t' then layer else 0) then [(t, coreSpire c)] else []) ++ down

/-- Is GS traffic between an agent and an address held by a retirement between its steps 1 and 2 (R65; DEDUCED, log 124)? -/
def laneHeld (s : State) (who : Agent) (a : Nat) : Bool :=
  isGs a && (laneSpires who a).any (fun x => (getTower s x.1).retires.any (fun r => !r.moved && decide (r.spire.toNat = x.2)))

/-- Is an access of an agent held at its requester by a retirement: at its home, or on its way (R65)? -/
def pathHeld (s : State) (who : Agent) (a : Nat) : Bool := spireHeld s a || laneHeld s who a

/-- The next load of a walk that runs, or may take a walker: one entry of the tables (R77, R89). -/
def walkStep (s : State) (id : Nat) : State :=
  match s.walks.find? (fun w => w.id = id && w.done.isNone) with
  | none => s
  | some w =>
    if w.running = false ∧ walkFirst s w = false then s
    else
      let va := w.region.toNat * 2 ^ 16
      match (if w.running then some w.table else rootTable s w.tower w.ctx), tableLevels[w.level]? with
      | some table, some l =>
        if spireHeld s (walkEntry l table va) then s
        else
          match walkLoad s l table va with
          | .ok next => putWalk s { w with running := true, level := w.level + 1, table := next }
          | .error r => endWalk s w r
      | _, _ => endWalk s w .failed

/-- The flat address of a byte of a space of R74 or R17: TM of a tower, CXL, host. -/
def spaceFlat (spc tower pa : Nat) : Nat := if spc = 0 then tmFlat tower pa else if spc = 1 then cxlFlat pa else hostFlat pa

/-- The flat address that a translation gives for an address. -/
def tcPhys (e : TcEntry) (va : Word) : Nat :=
  let l := e.leaf.toNat
  spaceFlat (bits l 61 60) (bits l 59 57) (bits l 51 16 * 2 ^ 16 + va.toNat % pageSize e.size.toNat)

/-- The handle that a translation makes on a tower (R85). -/
def makeHandle (t : BitVec 3) (e : TcEntry) : Handle :=
  let l := e.leaf.toNat
  let spc := bits l 61 60
  let tag := if spc = 0 then (if bits l 59 57 = t.toNat then 0 else 1) else spc + 1
  { bits := BitVec.ofNat 128
      (2 ^ 127 + tag * 2 ^ 123 + (if spc = 0 then bits l 59 57 else 0) * 2 ^ 120 + e.size.toNat * 2 ^ 118 +
        bits l 15 12 * 2 ^ 114 + e.ctx.toNat * 2 ^ 102 +
        e.vpage.toNat * 2 ^ 16)
    pa := BitVec.ofNat 36 (bits l 51 16) }

/-! ### Instruction fetch (R22, R76, R219) -/

/-- Does a core fetch without tables: a supervisor core whose context 0 has none (DEDUCED, log 16)? -/
def fetchPhysical (s : State) (a : Agent) : Bool :=
  isSup a && !bit (mapGet 0 (getTower s (agentTower a)).vroot 0).toNat 63

/-- What a fetch comes to: what it reads, the address that failed, an address whose bytes cannot be read (R58, R65), or a wait: for
a walk for an address (R89), or for a spire (R65). -/
inductive Fetched (α : Type) where
  | ok (x : α)
  | error (adr : Word)
  | lost (adr : Word)
  | walk (va : Word)
  | held
  deriving DecidableEq, Repr

/-- Did the fetch read something? -/
def Fetched.isOk {α : Type} : Fetched α → Bool
  | .ok _ => true
  | _ => false

/-- Go on with what a fetch read. -/
def Fetched.andThen {α β : Type} (x : Fetched α × State) (f : α → State → Fetched β × State) : Fetched β × State :=
  match x with
  | (.ok y, s) => f y s
  | (.error a, s) => (.error a, s)
  | (.lost a, s) => (.lost a, s)
  | (.walk a, s) => (.walk a, s)
  | (.held, s) => (.held, s)

/-- The flat address that fetch reads for an address, if it may be fetched (R76). -/
def fetchPhys (s : State) (a : Agent) (va : Word) : Fetched Nat :=
  if !canonical va then .error va
  else if fetchPhysical s a then
    (if va.toNat < 2 ^ 36 then .ok (tmFlat (agentTower a).toNat va.toNat) else .error va)
  else
    match translate s a (fetchCtx s a) va with
    | .hit e => if bits e.leaf.toNat 61 60 = 0 ∧ bit e.leaf.toNat 13 then .ok (tcPhys e va) else .error va
    | .failed => .error va
    | .lost x => .lost (word (x % 2 ^ 36))
    | .miss => .walk va

/-- Does a cached line stand for a line number of a context? -/
def icHit (ctx : BitVec 12) (line : Nat) (l : IcLine) : Bool := decide (l.ctx = ctx) && decide (l.line = line)

/-- Put a line into a core's instruction cache of 512 lines. -/
def icFill (s : State) (a : Agent) (l : IcLine) : State :=
  modCore s a (fun c => { c with ic := (l :: c.ic.filter (fun x => !icHit l.ctx l.line x)).take 512 })

/-- The 128 bytes of the fetch line that holds an address: from the home, or, where the cache holds other bytes, the old or
the new ones (R22; DESIGN CHOICE, log 10). A line whose home cannot be read is lost where the cache does not hold it (R58, R65;
DEDUCED, log 53). -/
def fetchLine (s : State) (a : Agent) (va : Word) : Fetched (List Byte) × State :=
  let ctx := fetchCtx s a
  let n := va.toNat / 128
  match fetchPhys s a va with
  | .ok p =>
    let home := p / 128 * 128
    let new := readBytes s home 128
    (match (getCore s a).ic.find? (icHit ctx n) with
     | none =>
       if spireHeld s home then (.held, s)
       else
         match (List.range 16).find? (fun i => badRange s (home + 8 * i) 8) with
         | some i => (.lost (word (n * 128 + 8 * i)), s)
         | none => (.ok new, icFill s a ⟨ctx, n, new⟩)
     | some l =>
       if l.bytes = new ∨ spireHeld s home = true ∨ badRange s home 128 = true then (.ok l.bytes, s)
       else
         let (b, s2) := takeBit s
         if b then (.ok new, icFill s2 a ⟨ctx, n, new⟩) else (.ok l.bytes, s2))
  | .error x => (.error x, s)
  | .lost x => (.lost x, s)
  | .walk x => (.walk x, s)
  | .held => (.held, s)

/-- A template word, or the address of the failed fetch (R219). -/
def fetchTemplate (s : State) (a : Agent) (va : Word) : Fetched Nat × State :=
  if va.toNat % 4 ≠ 0 then (.error va, s)
  else Fetched.andThen (fetchLine s a va) (fun l s1 => (.ok (leNat ((l.drop (va.toNat % 128)).take 4)), s1))

/-- The bytes of the bundle at an address, or the lowest address whose fetch failed (R219). -/
def fetchBundle (s : State) (a : Agent) (va : Word) : Fetched (List Byte) × State :=
  if va.toNat % 4 ≠ 0 then (.error va, s)
  else
    Fetched.andThen (fetchLine s a va) (fun l s1 =>
      let tail := l.drop (va.toNat % 128)
      let len := bundleLen (leNat (tail.take 4))
      if len ≤ tail.length then (.ok (tail.take len), s1)
      else
        let next := BitVec.ofNat 64 ((va.toNat / 128 + 1) * 128)
        if va.toNat + len ≤ 2 ^ 64 then Fetched.andThen (fetchLine s1 a next) (fun l2 s2 => (.ok ((tail ++ l2).take len), s2))
        else (.error next, s1))

/-- The address that follows a bundle of a length. One past the last address is never wrapped (R219): the model holds it as an
address that is not canonical (DESIGN CHOICE, log 17). -/
def seqAdr (va : Word) (len : Nat) : Word :=
  if va.toNat + len < 2 ^ 64 then va + BitVec.ofNat 64 len else 0x8000_0000_0000_0000

/-- The address that follows the bundle at an address, by its template word. -/
def afterBundle (s : State) (a : Agent) (va : Word) : Fetched Word × State :=
  Fetched.andThen (fetchTemplate s a va) (fun t s1 => (.ok (seqAdr va (bundleLen t)), s1))

/-- The address that follows `n` more bundles. -/
def afterBundles (s : State) (a : Agent) : Nat → Word → Fetched Word × State
  | 0, va => (.ok va, s)
  | n + 1, va => Fetched.andThen (afterBundle s a va) (fun v s1 => afterBundles s1 a n v)

end Sys2Proof.Machine
end

