-- ==== Sys2Proof/Machine/Control.lean ====
section
/-!
DEFINITION. The control slot CTL: targets, transfers, loops, votes, flags and events (spec 12_scalar_control.md R250 to R261).
TEND stands with the end of a task.
-/
namespace Sys2Proof.Machine

/-! ### Targets and transfers -/

/-- A fetch fault against the bundle that acts (R219, R251, R255). -/
def fetchFault (adr : Word) (slot : Nat) : FaultInfo := mkFault .fetch adr slot

/-- An acting transfer: its target is checked, then it is pending with its delay bundles (R251). The drain mark is the
bundle's and is set when the bundle ends. -/
def transferTo (f : Xfr) (s : State) : Act :=
  let x := targetReg (curTask s) f.t.toNat
  if canonical x = false ∨ x.toNat % 4 ≠ 0 then .trap (fetchFault x 0)
  else .done (modTask s (fun t => { t with pend := some ⟨x, f.dly.toNat, false, none⟩ }))

/-- The address that follows the last delay bundle of a transfer in the bundle that acts (R251). -/
def linkAddress (s : State) (d : Nat) : Fetched Word × State := afterBundles s s.cur (d + 1) (curTask s).pc

/-- What a syllable answers where the code that follows it could not be fetched: a fault against its bundle, or a wait. -/
def Fetched.missed {α : Type} : Fetched α → Act
  | .ok _ => .stall
  | .error a => .trap (fetchFault a 0x0F)
  | .lost a => .trap (mkFault .uncorrected a 0x0F)
  | .walk va => .wait (.link va)
  | .held => .stall

/-! ### Loops -/

/-- Deactivate the loops activated at or after an order (R255, R257). -/
def dropFrom (k : Nat) (l : List LoopSt) : List LoopSt :=
  l.map (fun x => if x.active ∧ k ≤ x.order then LoopSt.zero else x)

/-- Deactivate a loop and every loop activated after it; an inactive one changes nothing (R257). -/
def breakAt (n : Nat) (l : List LoopSt) : List LoopSt :=
  let x := l.getD n LoopSt.zero
  if x.active then dropFrom x.order l else l

/-- The order of the loop to be activated next. -/
def nextOrder (l : List LoopSt) : Nat := l.foldl (fun m x => if x.active then max m (x.order + 1) else m) 1

/-- LOOP and LOOPI: activate a loop after its bundle, or skip the body (R255). A fetch fault on the end bundle's template is
taken against the LOOP bundle, with FSLT.SLOT 0x0F. -/
def loopTo (n : Nat) (count : Word) (x : Nat) (s : State) : Act :=
  let pc := (curTask s).pc
  let e := pc + BitVec.ofNat 64 (4 * x)
  if count = 0 then
    match afterBundle s s.cur e with
    | (.ok next, s1) => .done (modTask s1 (fun t => { t with loops := breakAt n t.loops, skip := some next }))
    | (x, _) => x.missed
  else
    match afterBundle s s.cur pc with
    | (.ok start, s1) =>
      .done (modTask s1 (fun t =>
        let l := breakAt n t.loops
        { t with loops := setAt l n ⟨count, true, start, e, nextOrder l⟩ }))
    | (x, _) => x.missed

/-! ### Votes -/

/-- The lane count of a vote (R258). -/
def voteLanes (f : SReg) : Nat := 2048 / 2 ^ (f.x.toNat % 4)

/-- The mask of a vote (R258). -/
def voteMask (t : Task) (f : SReg) : Option Pred := if f.x.getLsbD 2 then some (predReg t (f.b.toNat % 16)) else none

/-! ### Events (R147, R261, R263) -/

/-- Was EVP set before the present cycle, whatever events the cycle has brought (R147)? -/
def evpBefore (cyc : Word) (t : Task) : Bool :=
  match t.evLast with
  | some (c, b) => if c = cyc then b else t.evp
  | none => t.evp

/-- An event reaches a task: EVP is set, and it is kept whether it stood before the cycle (R147). -/
def takeEvent (cyc : Word) (t : Task) : Task := { t with evp := true, evLast := some (cyc, evpBefore cyc t) }

/-- WFE takes the event-pending bit: a new event of the same cycle keeps it set, where an older one was there to be taken (R147,
R154). -/
def clearEvent (cyc : Word) (t : Task) : Task :=
  { t with evp := evpBefore cyc t && decide (t.evLast = some (cyc, true)), evLast := none }

/-- Set the event-pending bit of a task. -/
def setEvp (s : State) (num : BitVec 32) : State := modTaskNum s num (takeEvent s.pkg.cyc)

/-- Does an event that names a task reach it: one PLACED or SUSPENDED (R261; DEDUCED, log 18)? -/
def takesEvent (t : Task) : Bool := decide (t.status ≠ .ready)

/-- Has a task an event-pending bit that a write of SEVW sets: one placed before, on a core or saved? A first placement clears the bit
(R143), so that an event before it leaves nothing (R147, R351). -/
def holdsEvent (t : Task) : Bool := takesEvent t || t.placedOnce

/-- SEV to a task number: only a live task of the issuer's context, or of any context from a supervisor core (R261, R263). -/
def sevTask (s : State) (num : BitVec 32) : State :=
  match findTask s num with
  | some t => if takesEvent t ∧ (isSup s.cur ∨ t.ctx = (curTask s).ctx) then setEvp s num else s
  | none => s

/-- SEV to every other member of the issuer's gang that has not ended (R261). -/
def sevGang (s : State) : State :=
  let t := curTask s
  (t.gang.filter (fun n => decide (n ≠ t.num) && (findTask s n).isSome)).foldl setEvp s

/-- SEV to the tower's supervisor core (R261). -/
def sevSup (s : State) : State :=
  modTower s (agentTower s.cur) (supEvent s.pkg.cyc)

/-- PBR: the bundle address plus four times the immediate (R250). -/
def sylPbr (f : Xfr) (s : State) : Act :=
  .done (pushDue s 1 0 (.target f.t.toNat ((curTask s).pc + f.imm.signExtend 64 * 4)))

/-- PBR with its gate. -/
def execPbr (h : Head) (f : Xfr) (s : State) : Host.Outcome State Fault Refusal :=
  runGated (.pbr h f) (sylPbr f) s

/-- PBRR: a scalar value (R250). -/
def sylPbrr (f : SReg) (s : State) : Act :=
  .done (pushDue s 1 0 (.target (f.x.toNat % 8) (scalarIn (curTask s) f.a)))

/-- PBRR with its gate. -/
def execPbrr (h : Head) (f : SReg) (s : State) : Host.Outcome State Fault Refusal :=
  runGated (.pbrr h f) (sylPbrr f) s

/-- XFER (R251). -/
def sylXfer (f : Xfr) (s : State) : Act :=
  transferTo f s

/-- XFER with its gate. -/
def execXfer (h : Head) (f : Xfr) (s : State) : Host.Outcome State Fault Refusal :=
  runGated (.xfer h f) (sylXfer f) s

/-- XFERL: the transfer, and the link register at L = 1 (R251). Where a following
template cannot be read yet, the link is written when the last delay bundle has issued (DESIGN CHOICE, log 19). -/
def sylXferl (f : Xfr) (s : State) : Act :=
  match transferTo f s with
  | .trap x => .trap x
  | .stall => .stall
  | .wait w => .wait w
  | .done s1 =>
    match linkAddress s1 f.dly.toNat with
    | (.ok link, s2) => .done (pushScalar s2 1 0 f.a.toNat link)
    | (.walk va, _) => .wait (.link va)
    | (.held, _) => .stall
    | (_, s2) =>
      .done (modTask (dropWalks s2 s2.cur) (fun t => { t with pend := t.pend.map (fun p => { p with link := some f.a.toNat }) }))

/-- XFERL with its gate. -/
def execXferl (h : Head) (f : Xfr) (s : State) : Host.Outcome State Fault Refusal :=
  runGated (.xferl h f) (sylXferl f) s

/-- LOOP: the count from a register (R255). -/
def sylLoop (f : SReg) (s : State) : Act :=
  loopTo (f.d.toNat % 4) (scalarIn (curTask s) f.a) f.x.toNat s

/-- LOOP with its gate. -/
def execLoop (h : Head) (f : SReg) (s : State) : Host.Outcome State Fault Refusal :=
  runGated (.loop h f) (sylLoop f) s

/-- LOOPI: the 14-bit count A : B (R255). -/
def sylLoopi (f : SReg) (s : State) : Act :=
  loopTo (f.d.toNat % 4) (word (f.a.toNat * 128 + f.b.toNat)) f.x.toNat s

/-- LOOPI with its gate. -/
def execLoopi (h : Head) (f : SReg) (s : State) : Host.Outcome State Fault Refusal :=
  runGated (.loopi h f) (sylLoopi f) s

/-- BREAK (R257). -/
def sylBreakLoop (f : SReg) (s : State) : Act :=
  .done (modTask s (fun t => { t with loops := breakAt (f.d.toNat % 4) t.loops }))

/-- BREAK with its gate. -/
def execBreakLoop (h : Head) (f : SReg) (s : State) : Host.Outcome State Fault Refusal :=
  runGated (.breakLoop h f) (sylBreakLoop f) s

/-- VANY (R258). -/
def sylVany (f : SReg) (s : State) : Act :=
  flagOut 0 f.f.toNat
    (voteAny (voteLanes f) (predReg (curTask s) (f.a.toNat % 16)) (voteMask (curTask s) f)) s

/-- VANY with its gate. -/
def execVany (h : Head) (f : SReg) (s : State) : Host.Outcome State Fault Refusal :=
  runGated (.vany h f) (sylVany f) s

/-- VALL (R258). -/
def sylVall (f : SReg) (s : State) : Act :=
  flagOut 0 f.f.toNat
    (voteAll (voteLanes f) (predReg (curTask s) (f.a.toNat % 16)) (voteMask (curTask s) f)) s

/-- VALL with its gate. -/
def execVall (h : Head) (f : SReg) (s : State) : Host.Outcome State Fault Refusal :=
  runGated (.vall h f) (sylVall f) s

/-- FOP (R259). -/
def sylFop (f : SReg) (s : State) : Act :=
  flagOut 0 f.f.toNat
    (fopFlag (f.x.toNat % 16) (flagReg (curTask s) (f.a.toNat % 16)) (flagReg (curTask s) (f.b.toNat % 16))
      (scalarIn (curTask s) f.c)) s

/-- FOP with its gate. -/
def execFop (h : Head) (f : SReg) (s : State) : Host.Outcome State Fault Refusal :=
  runGated (.fop h f) (sylFop f) s

/-- WFE: issues once the event bit is set, and clears it (R147, R260); on a supervisor core also once its queue is not empty
(R263), and an event of this cycle stays where it could issue without it (DEDUCED, log 127). -/
def sylWfe (_f : SReg) (s : State) : Act :=
  match s.cur with
  | .core _ _ => if (curTask s).evp then .done (modTask s (clearEvent s.pkg.cyc)) else .stall
  | .sup t =>
    let w := getTower s t
    if w.sup.evBit ∨ w.evq ≠ [] then
      .done (setTower s t (clearSupEvent s.pkg.cyc w))
    else .stall

/-- WFE with its gate. -/
def execWfe (h : Head) (f : SReg) (s : State) : Host.Outcome State Fault Refusal :=
  runGated (.wfe h f) (sylWfe f) s

/-- SEV (R261). -/
def sylSev (f : SReg) (s : State) : Act :=
  .done
    (match f.x.toNat with
     | 0 => sevTask s ((scalarIn (curTask s) f.a).setWidth 32)
     | 1 => sevGang s
     | _ => sevSup s)

/-- SEV with its gate. -/
def execSev (h : Head) (f : SReg) (s : State) : Host.Outcome State Fault Refusal :=
  runGated (.sev h f) (sylSev f) s

end Sys2Proof.Machine
end

