-- ==== Sys2Proof/Machine/Access.lean ====
section
/-!
DEFINITION. Checked accesses: buffer records and handles, the checks of R90 with the bounds modes of R266, granule events and
the edges of MustPrecede among the accesses of one core (spec 04_translation.md R80 to R91, 05_consistency.md R92 to R103).
-/
namespace Sys2Proof.Machine

/-! ### Fields of a record (R80) and a handle (R85) -/

/-- A field of a record. -/
def Rec.field (b : Rec) (hi lo : Nat) : Nat := Sys2Proof.Machine.bits b.bits.toNat hi lo
/-- BASE. -/
def Rec.base (b : Rec) : Nat := b.field 255 192
/-- EXTENT. -/
def Rec.extent (b : Rec) : Nat := b.field 191 152
/-- STRIDE1. -/
def Rec.stride1 (b : Rec) : Nat := b.field 151 120
/-- STRIDE2. -/
def Rec.stride2 (b : Rec) : Nat := b.field 119 88
/-- FMT. -/
def Rec.fmt (b : Rec) : Nat := b.field 87 84
/-- BMODE. -/
def Rec.bmode (b : Rec) : Nat := b.field 83 82
/-- SPACE. -/
def Rec.space (b : Rec) : Nat := b.field 75 74
/-- TAG. -/
def Rec.tag (b : Rec) : Nat := b.field 73 70
/-- TSHAPE. -/
def Rec.tshape (b : Rec) : Nat := b.field 69 67
/-- INDEX. -/
def Rec.index (b : Rec) : Nat := b.field 47 32
/-- CTX. -/
def Rec.ctx (b : Rec) : Nat := b.field 31 20

/-- A field of a handle. -/
def Handle.field (h : Handle) (hi lo : Nat) : Nat := Sys2Proof.Machine.bits h.bits.toNat hi lo
/-- VALID. -/
def Handle.valid (h : Handle) : Bool := h.bits.getLsbD 127
/-- The physical base of the page. -/
def Handle.phys (h : Handle) : Nat := h.pa.toNat * 2 ^ 16
/-- SIZE. -/
def Handle.size (h : Handle) : Nat := h.field 119 118
/-- The first VA of the page, its high bits copies of bit 51. -/
def Handle.vbase (h : Handle) : Nat := ((BitVec.ofNat 52 (h.field 51 16 * 2 ^ 16)).signExtend 64).toNat

/-- The alignment unit of a format (R81, R196). -/
def alignUnit (fmt : Nat) : Nat :=
  match fmt with
  | 0 => 1
  | 1 => 2
  | 2 => 4
  | 3 => 8
  | 4 => 1
  | 5 => 2
  | 6 => 4
  | 7 => 8
  | 8 => 2
  | 9 => 2
  | 10 => 4
  | _ => 64

/-! ### The checks of an access (R90) -/

/-- The kind of an access. -/
inductive Kind where
  | load
  | store
  | atomic
  deriving DecidableEq, Repr

/-- A piece of an access: its place in the register image, its offset from BASE, its length. -/
structure Piece where
  img : Nat
  off : Nat
  len : Nat
  deriving DecidableEq, Repr

/-- A run of bytes of an access that is performed: its place in the image, its flat address, its length. -/
structure Run where
  img : Nat
  adr : Nat
  len : Nat
  deriving DecidableEq, Repr

/-- What an access asks for: through which record and handle it goes, which space its slot is wired to (none for a copy end),
its kind, the alignment of its offset, the bounds element, and its rows. -/
structure Ask where
  recd : Rec
  hnd : Handle
  wired : Option Nat
  kind : Kind
  unit : Nat
  es : Nat
  off : Int
  rows : List (Nat × Int × Nat)     -- place in the image, offset from BASE, length
  tile : Bool
  deriving DecidableEq, Repr

/-- The address that FADR reports: BASE + off in the record's space (R90). -/
def askAdr (q : Ask) : Word := BitVec.ofInt 64 ((q.recd.base : Int) + q.off)

/-- Is the access kind permitted by three bits RD, WR and AT? -/
def permits (k : Kind) (rd wr at' : Bool) : Bool :=
  match k with
  | .load => rd
  | .store => wr
  | .atomic => rd && wr && at'

/-- The address that FADR reports for a flat address which an access reaches (R90): the VA through a handle, the GS address, or
the offset in the own scratchpad. -/
def fadrOf (q : Ask) (a : Nat) : Word :=
  if q.recd.space = 2 then
    word (q.hnd.vbase + (a - (if q.hnd.field 126 123 < 2 then tmFlat (q.hnd.field 122 120) q.hnd.phys
      else if q.hnd.field 126 123 = 2 then cxlFlat q.hnd.phys else hostFlat q.hnd.phys)))
  else if q.recd.space = 1 then word a
  else word (a % 2 ^ 20)

/-- What FADR reports for an uncorrectable error at a flat address that an access reaches: in tower memory the offset of the byte
from BASE (R58), elsewhere its address (R367) (DEDUCED, log 107). -/
def errorAdr (q : Ask) (a : Nat) : Word :=
  if isTm a then fadrOf q a - word q.recd.base else fadrOf q a

/-- The fault of an access to an unreachable channel, which every access there takes (R65; DEDUCED, log 23). -/
def lostFault (s : State) (slot : Nat) (q : Ask) (rs : List Run) : Option FaultInfo :=
  (rs.find? (fun r => lostAt s r.adr)).map (fun r => mkFault .uncorrected (errorAdr q r.adr) slot)

/-- The parts of one row that lie inside EXTENT, and the copies that CLAMP makes (R266). -/
def splitRow (q : Ask) (img off len : Nat) : List Piece :=
  let ext := q.recd.extent
  let inside := if off + len ≤ ext then len else min len ((ext - off) / q.es * q.es)
  let clamp :=
    if q.kind = .load ∧ q.recd.bmode = 1 ∧ q.es ≤ ext ∧ inside < len then
      (List.range ((len - inside) / q.es)).map (fun i => ⟨img + inside + i * q.es, ext / q.es * q.es - q.es, q.es⟩)
    else []
  (if inside = 0 then [] else [⟨img, off, inside⟩]) ++ clamp

/-- Does some enabled object table lie in a TM range (R79)? -/
def hitsTable (s : State) (a n : Nat) : Bool :=
  s.towers.any (fun w => w.2.otroot.any (fun r =>
    let x := r.2.toNat
    bit x 63 &&
      (let b := tmFlat (bits x 62 60) (bits x 35 21 * 2 ^ 21)
       decide (a < b + 2 ^ 21) && decide (b < a + n))))

/-- The tag that counts: tag 1 naming the own tower is tag 0 (R18). -/
def handleTag (t : BitVec 3) (h : Handle) : Nat :=
  let g := h.field 126 123
  if g = 1 ∧ h.field 122 120 = t.toNat then 0 else g

/-- The flat address of a physical address through a handle. -/
def handleFlat (h : Handle) (pa : Nat) : Nat :=
  let g := h.field 126 123
  if g < 2 then tmFlat (h.field 122 120) pa else if g = 2 then cxlFlat pa else hostFlat pa

/-- The end, exclusive, of the space of a handle (R17). -/
def spaceEnd (s : State) (h : Handle) : Nat :=
  let g := h.field 126 123
  if g < 2 then 2 ^ 36 else if g = 2 then cxlEnd s else hostEnd s

/-- Does an enabled CXL decoder cover every byte of a range (R386)? Two ranges that adjoin may cover it together. -/
def cxlCovered (s : State) (pa n : Nat) : Bool :=
  let join := fun (p q : Nat) =>
    let m := decoderEnd s p - pa
    decoderCovers s p pa m && decide (0 < m) && decide (m < n) && decoderCovers s q (pa + m) (n - m)
  decoderCovers s 0 pa n || decoderCovers s 1 pa n || join 0 1 || join 1 0

/-- Is a physical range within the space of a handle (R17, R19, R386)? -/
def reachable (s : State) (h : Handle) (pa n : Nat) : Bool :=
  decide (pa + n ≤ spaceEnd s h) && (decide (h.field 126 123 ≠ 2) || cxlCovered s pa n)

/-- A fault of an access check, with the check's number in DETAIL and class 2 (R365, R367). -/
def checkFault (c : FCode) (adr : Word) (slot check : Nat) : FaultInfo := { mkFault c adr slot check with cls := 2 }

/-- Does a row that begins inside a handle's page and space run past the end of the space (R12, R19)? -/
def rowLeaves (s : State) (q : Ask) (r : Nat × Int × Nat) : Bool :=
  let va := q.recd.base + r.2.1.toNat
  let pa := q.hnd.phys + (va - q.hnd.vbase)
  decide (q.hnd.vbase ≤ va) && decide (va < q.hnd.vbase + pageSize q.hnd.size) && decide (pa < spaceEnd s q.hnd) &&
    decide (spaceEnd s q.hnd < pa + r.2.2)

/-- Checks 6 and 7 on the pieces of an MTW access in handle space; the runs they give. A handle with a reserved tag faults
TRANSLATION whether it is VALID or not (R17) (DEDUCED, log 105). -/
def checkHandle (s : State) (who : Agent) (slot : Nat) (q : Ask) (adr : Word) (ps : List Piece) : Except FaultInfo (List Run) :=
  let h := q.hnd
  let g := h.field 126 123
  if 4 ≤ g then .error (checkFault .translation (BitVec.ofInt 64 q.off) slot 6)
  else if !h.valid then .error (checkFault .handleStale adr slot 6)
  else if handleTag (agentTower who) h ≠ q.recd.tag ∨ permits q.kind (h.bits.getLsbD 117) (h.bits.getLsbD 116) (h.bits.getLsbD 114) = false ∨
      (q.kind = .atomic ∧ 2 ≤ g) then .error (checkFault .rights adr slot 6)
  else
    let page := pageSize h.size
    let inPage := fun (p : Piece) =>
      let va := q.recd.base + p.off
      decide (h.vbase ≤ va) && decide (va + p.len ≤ h.vbase + page) && reachable s h (h.phys + (va - h.vbase)) p.len
    if ps.any (fun p => !inPage p) || q.rows.any (rowLeaves s q) then .error (checkFault .bounds adr slot 7)
    else
      let runs := ps.map (fun p => (⟨p.img, handleFlat h (h.phys + (q.recd.base + p.off - h.vbase)), p.len⟩ : Run))
      if runs.any (fun r => isTm r.adr && hitsTable s r.adr r.len) then .error (checkFault .priv adr slot 7) else .ok runs

/-- Check 8 on one piece in GS: the fault, if any. -/
def gsFault (who : Agent) (a n : Nat) : Option FCode :=
  if gsValid a = false ∨ gsEnd a < a + n then some .bounds
  else if bit a 28 ∧ isSup who = false ∧
      (poolShare (bits a 27 0) ≠ .stream ∨ poolShare (bits (a + n - 1) 27 0) ≠ .stream) then some .priv
  else none

/-- Check 8: the runs of pieces in GS. -/
def checkGs (who : Agent) (slot : Nat) (q : Ask) (adr : Word) (ps : List Piece) : Except FaultInfo (List Run) :=
  match ps.findSome? (fun p => gsFault who (q.recd.base + p.off) p.len) with
  | some c => .error (checkFault c adr slot 8)
  | none => .ok (ps.map (fun p => ⟨p.img, q.recd.base + p.off, p.len⟩))

/-- The checks 6 to 8 on the pieces that check 5 left; with none, none apply (R90). -/
def placePieces (s : State) (who : Agent) (slot : Nat) (q : Ask) (adr : Word) (ps : List Piece) : Except FaultInfo (List Run) :=
  if ps.isEmpty then .ok []
  else if q.recd.space = 2 then checkHandle s who slot q adr ps
  else if q.recd.space = 1 then checkGs who slot q adr ps
  else
    match who with
    | .core t c => .ok (ps.map (fun p => ⟨p.img, lsFlat t c (q.recd.base + p.off), p.len⟩))
    | .sup t => .error (mkFault .featureAbsent (getCore s (.sup t)).task.pc slot)

/-- Does a row fail the negative-offset and carry rule (R265)? -/
def rowCarries (q : Ask) (r : Nat × Int × Nat) : Bool :=
  decide (r.2.1 < 0) || decide ((2 : Int) ^ 64 < (q.recd.base : Int) + r.2.1 + r.2.2)

/-- Does a row reach EXTENT or beyond? -/
def rowBeyond (q : Ask) (r : Nat × Int × Nat) : Bool := decide ((q.recd.extent : Int) < r.2.1 + r.2.2)

/-- Does a row that begins inside its scratchpad or pool run past its end? It faults in every bounds mode (R12) (DEDUCED,
log 106). -/
def rowOverruns (q : Ask) (r : Nat × Int × Nat) : Bool :=
  let a := q.recd.base + r.2.1.toNat
  if q.recd.space = 0 then decide (a < 2 ^ 20) && decide (2 ^ 20 < a + r.2.2)
  else decide (q.recd.space = 1) && gsValid a && decide (gsEnd a < a + r.2.2)

/-- The checks of R90 in their order: the runs of bytes the access performs, or the first failing check. Check 4 of an atomic is on its
address too (R274). -/
def checkAsk (s : State) (who : Agent) (slot : Nat) (q : Ask) : Except FaultInfo (List Run) :=
  let b := q.recd
  let adr := askAdr q
  let fail := fun c n => Except.error (checkFault c adr slot n)
  if b.loaded = false ∨ b.revoked = true then fail .rights 1
  else if (match q.wired with
      | some sp => decide (b.space ≠ sp)
      | none => false) then fail .rights 2
  else if permits q.kind (b.bits.getLsbD 81) (b.bits.getLsbD 80) (b.bits.getLsbD 79) = false ∨
      (q.tile = true ∧ b.tshape = 0) then fail .rights 3
  else if q.off % (q.unit : Int) ≠ 0 ∨ (q.kind = .atomic ∧ ((b.base : Int) + q.off) % (q.unit : Int) ≠ 0) then fail .misaligned 4
  else if q.rows.any (rowCarries q) then fail .bounds 5
  else if (b.bmode = 0 ∨ q.kind = .atomic) ∧ q.rows.any (rowBeyond q) then fail .bounds 5
  else if q.rows.any (rowOverruns q) then fail .bounds (if b.space = 0 then 5 else 8)
  else placePieces s who slot q adr (q.rows.flatMap (fun r => splitRow q r.1 r.2.1.toNat r.2.2))

/-! ### Granule events (R92) -/

/-- The aligned 8-byte granules of a run; `n` bounds their number. -/
def granulesOf : Nat → Nat → Nat → Nat → List Gran
  | 0, _, _, _ => []
  | n + 1, img, a, len =>
    if len = 0 then []
    else
      let k := min len (8 - a % 8)
      ⟨a, k, img⟩ :: granulesOf n (img + k) (a + k) (len - k)

/-- The granule events of the runs of an access. -/
def eventsOf (rs : List Run) : List Gran := rs.flatMap (fun r => granulesOf (r.len / 8 + 2) r.img r.adr r.len)

/-- The bytes of the register image replaced by memory's bytes at one granule. -/
def loadGran (s : State) (buf : VReg) (g : Gran) : VReg :=
  setPart buf g.off g.len (readNat s g.adr g.len)
where
  /-- Replace `n` bytes of an image from byte `i`. -/
  setPart (v : VReg) (i n x : Nat) : VReg :=
    BitVec.ofNat 16384 (setBits v.toNat (8 * (i + n) - 1) (8 * i) x)

/-- The bytes of an image from byte `i`. -/
def imageBytes (v : VReg) (i n : Nat) : List Byte := leBytes n (v.toNat >>> (8 * i))

/-- The register image that runs of bytes give, zero elsewhere. -/
def loadRuns (s : State) (rs : List Run) : VReg :=
  rs.foldl (fun v r => loadGran s v ⟨r.adr, r.len, r.img⟩) 0

/-- Store an image's bytes at the runs, granule by granule, as one triggering write (R92, R190). -/
def storeRuns (s : State) (v : VReg) (rs : List Run) : State :=
  storeAll s ((eventsOf rs).map (fun g => (g.adr, imageBytes v g.off g.len)))

/-- The value an atomic leaves (R272, R273): `x` its operand, `y` the comparand. -/
def atomicNew (op : AtomicOp) (n : Nat) (old x y : Nat) : Nat :=
  let w := 8 * n
  match op with
  | .cas => if old = y % 2 ^ w then x % 2 ^ w else old
  | .amo k =>
    let v := x % 2 ^ w
    match k.toNat with
    | 0 => (old + v) % 2 ^ w
    | 1 => old &&& v
    | 2 => old ||| v
    | 3 => old ^^^ v
    | 4 => if signed w v < signed w old then v else old
    | 5 => if signed w old < signed w v then v else old
    | 6 => if v < old then v else old
    | 7 => if old < v then v else old
    | _ => v

/-! ### Order among the accesses of one core (R94 to R103) -/

/-- Does an operation count as a load (R95)? -/
def opLoads : AccOp → Bool
  | .loadS _ _ _ => true
  | .loadV _ => true
  | .store _ => false
  | .atomic _ _ _ _ _ => true
  | .bld _ => true
  | .mark => false
  | .fence _ _ _ => false

/-- Does an operation count as a store (R95)? -/
def opStores : AccOp → Bool
  | .loadS _ _ _ => false
  | .loadV _ => false
  | .store _ => true
  | .atomic _ _ _ _ _ => true
  | .bld _ => false
  | .mark => false
  | .fence _ _ _ => false

/-- Is an entry an access, rather than a marker or a fence? -/
def isAccess (x : Access) : Bool := opLoads x.op || opStores x.op

/-- Do two byte ranges overlap? -/
def rangesMeet (x y : Nat × Nat) : Bool := decide (x.1 < y.1 + y.2) && decide (y.1 < x.1 + x.2)

/-- Do two accesses overlap? -/
def accOverlap (x y : Access) : Bool := x.all.any (fun p => y.all.any (rangesMeet p))

/-- Does the home of an access lie in a scope of its core (R99)? Its first run of bytes decides (DEDUCED, log 137). -/
def homeInScope (scope : Nat) (x : Access) : Bool :=
  match x.all with
  | [] => false
  | p :: _ => inScope scope x.who p.1

/-- The direct edge A → B of R95 cases 1 to 3 and R101, for the granule of B at an address. The registers of one syllable make one
access (R92). Where an access spans several home units, case 1 holds granule by granule (DEDUCED, log 135). -/
def edgeDirect (a b : Access) (adr : Nat) : Bool :=
  (isAccess a && isAccess b && decide (a.group ≠ b.group)) &&
    ((decide (a.slot = b.slot) && ((opLoads a.op && opLoads b.op) || (opStores a.op && opStores b.op)) &&
        (homeUnit adr).isSome && a.grans.any (fun g => decide (homeUnit g.adr = homeUnit adr))) ||
      (decide (a.slot = 9) && decide (b.slot = 9) && a.own && b.own) ||
      (decide (a.slot = b.slot) && (decide (a.cls = 0) || decide (b.cls = 0) || decide (a.cls = b.cls)) && accOverlap a b) ||
      a.acq ||
      (match b.rel with
       | some sc => homeInScope sc a
       | none => false))

/-- The edge A → B through a marker or fence between them (R98, R100). -/
def edgeThrough (a m b : Access) : Bool :=
  match m.op with
  | .mark => isAccess a && isAccess b && decide (a.slot = m.slot) && decide (b.slot = m.slot)
  | .fence acq rel sc =>
    isAccess a && isAccess b && homeInScope sc a &&
      ((acq && rel) || (acq && opLoads a.op) || (rel && opStores b.op))
  | _ => false

/-- Does an earlier access of the core, among those issued before `b`, hold the granule of `b` at an address? `l` runs from
the oldest. -/
def heldBy (b : Access) (adr : Nat) : List Access → Bool
  | [] => false
  | a :: l =>
    if a.who = b.who then
      edgeDirect a b adr || l.any (fun m => decide (m.who = b.who) && edgeThrough a m b) || heldBy b adr l
    else heldBy b adr l

/-- The reads of a queued macro as one load of the MLS slot, until it ends (R95, R320): its command block, the range of its record,
which its rows, queries and words do not leave, and the index table of an MMT (DEDUCED, log 114). -/
def macroAccess (s : State) (a : Agent) (k : Task) (m : Macro) : Access :=
  let word1 := readNat s (m.block.toNat + 8) 8
  let ls := m.block.toNat / 2 ^ 22 * 2 ^ 22
  let b := recReg k (bits word1 63 59)
  let base := if b.space = 0 then ls + b.base else b.base
  let all := match m.kind with
    | .mmt => [(m.block.toNat, 64), (ls + bits word1 19 0, 256), (base, b.extent)]
    | .matt => [(m.block.toNat, 64), (base, b.extent)]
  { id := m.id, who := a, num := k.num, born := m.born, slot := 7, cls := 0, op := .loadV 0,
    grans := all.map (fun r => ⟨r.1, r.2, 0⟩), all := all, home := homeUnit m.block.toNat, own := false,
    acq := false, rel := none, buf := 0, bad := none, fadr := 0, group := m.id, whole := all, hits := [], recd := none, hnd := none }

/-- The error area of a core (R214). -/
def errorArea (a : Agent) (k : Task) : Nat :=
  match a with
  | .core t c => lsFlat t c (64 * k.earea.toNat)
  | .sup _ => 0

/-- The error record of a failed macro as one store of the MLS slot (R215). -/
def recordAccess (a : Agent) (k : Task) (m : Macro) (e : MacroEnd) : Access :=
  let area := errorArea a k
  { id := e.id, who := a, num := k.num, born := m.born, slot := 7, cls := 0, op := .store 0, grans := [⟨area, 64, 0⟩], all := [(area, 64)],
    home := homeUnit area, own := false, acq := false, rel := none, buf := 0, bad := none, fadr := 0, group := e.id,
    whole := [(area, 64)], hits := [], recd := none, hnd := none }

/-- Insert an entry behind those with lower identifiers. -/
def insertAcc (x : Access) : List Access → List Access
  | [] => [x]
  | y :: l => if x.id < y.id then x :: y :: l else y :: insertAcc x l

/-- The entries of the queues in order, with the macros that an agent has queued (R320). Where the head has failed, its error record
alone is still to come: the macros behind it are discarded. -/
def withMacros (s : State) (a : Agent) (l : List Access) : List Access :=
  let k := (getCore s a).task
  match k.macros with
  | [] => l
  | m :: r =>
    match m.fail with
    | some e => insertAcc (recordAccess a k m e) l
    | none => (m :: r).foldl (fun l m => insertAcc (macroAccess s a k m) l) l

/-- The accesses that an agent issued before an identifier. -/
def issuedBefore (s : State) (a : Agent) (id : Nat) : List Access := (withMacros s a s.acc).filter (fun x => decide (x.id < id))

/-- Is an access of MLS, performed at its issue, held by an earlier access of its core (R103)? An MLS access of its own bundle,
still to be completed, holds it in the queues only, so that an atomic does not wait for the queued reads of a GATH beside it (DESIGN
CHOICE, log 136). -/
def mlsHeld (s : State) (b : Access) : Bool :=
  heldBy b (match b.all with
    | p :: _ => p.1
    | [] => 0) ((withMacros s b.who s.acc).filter (fun x => !(decide (x.slot = 7) && isAccess x && decide (x.who = b.who) && decide (x.born = b.born))))

/-! ### KV pages on their way back to their pool (R28, R119) -/

/-- The key of a KV page: tower, pool, tier, and its index in the window. -/
def pageKey (t : BitVec 3) (pool tier idx : Nat) : Nat := ((t.toNat * 64 + pool) * 2 + tier) * 2 ^ 32 + idx

/-- Change the free count of the pool that a page belongs to. -/
def bumpFree (s : State) (key : Nat) (up : Bool) : State :=
  let q := key / 2 ^ 32
  let a := poolAdr (BitVec.ofNat 3 (q / 128)) (q / 2 % 64) + (if q % 2 = 0 then 0x18 else 0x30)
  putField s a 31 0 (if up then getField s a 31 0 + 1 else getField s a 31 0 - 1)

/-- KBS of an epoch. -/
def BusCfg.kbs (c : BusCfg) : Nat := bits (c.words.getD 0 0).toNat 63 56
/-- The slices of an epoch (R313). -/
def BusCfg.total (c : BusCfg) : Nat := c.kbs * c.planes * 4

/-- The bus epochs that still have slices to read, each with the first of them: the running epoch of a member, and the one that it has
asked for (R313). -/
def busEpochs (s : State) : List (Nat × BusCfg) :=
  s.buses.flatMap (fun g =>
    let p := g.ahead.length + (match g.slice with | some x => x.1 + 1 | none => 0)
    g.members.flatMap (fun m =>
      (m.cfg.toList.filter (fun c => !m.bad && decide (p < c.total))).map (fun c => (p, c)) ++ m.next.toList.map (fun c => (0, c))))

/-- Is an access, a job or the reading of a bus epoch still in flight? -/
def inFlight (s : State) (id : Nat) : Bool :=
  s.acc.any (fun x => decide (x.id = id)) || s.jobs.any (fun j => decide (j.id = id)) || (busEpochs s).any (fun e => decide (e.2.stamp = id))

/-- Return to their pools the pages whose last accesses have been performed. -/
def sweepFreeing (s : State) : State :=
  if s.freeing.isEmpty then s
  else
    let due := s.freeing.filter (fun f => !f.2.any (inFlight s))
    let s1 := { s with
      freeing := s.freeing.filter (fun f => f.2.any (inFlight s))
      pages := s.pages.filter (fun k => !due.any (fun f => decide (f.1 = k))) }
    due.foldl (fun s f => bumpFree s f.1 true) s1

/-- Drop the markers and fences of a core behind which no access of it remains. -/
def sweepMarks (l : List Access) : List Access :=
  l.filter (fun m => isAccess m || l.any (fun a => decide (a.who = m.who) && isAccess a && decide (a.id < m.id)))

/-- A fresh identifier. -/
def freshId (s : State) : Nat × State := (s.nextId, { s with nextId := s.nextId + 1 })

/-- A new entry of the memory queues of the core that acts. -/
def mkAccess (s : State) (id slot : Nat) (cls : BitVec 2) (op : AccOp) (rs : List Run) : Access :=
  let t := curTask s
  let home := match rs with
    | r :: _ => some r.adr
    | [] => none
  { id := id, who := s.cur, num := t.num, born := t.issued, slot := slot, cls := cls, op := op, grans := eventsOf rs,
    all := rs.map (fun r => (r.adr, r.len)), home := home.bind homeUnit,
    own := match home with
      | some a => ownSpire s.cur a
      | none => false
    acq := false, rel := none, buf := 0, bad := none, fadr := 0, group := id, whole := rs.map (fun r => (r.adr, r.len)), hits := [],
    recd := none, hnd := none }

/-- Put an entry into the queues, with a fresh identifier. -/
def enqueueAccess (s : State) (x : Access) : State :=
  { s with acc := s.acc ++ [{ x with id := s.nextId }], nextId := s.nextId + 1 }

/-- The record and handle identities an access was checked through (R83, R87). -/
def recIdent (b : Rec) : Option (BitVec 12 × BitVec 16) := some (BitVec.ofNat 12 b.ctx, BitVec.ofNat 16 b.index)

/-- The identity of a handle: context, page and size. -/
def hndIdent (h : Handle) : Option (BitVec 12 × BitVec 36 × BitVec 2) :=
  some (BitVec.ofNat 12 (h.field 113 102), BitVec.ofNat 36 (h.field 51 16), BitVec.ofNat 2 h.size)

end Sys2Proof.Machine
end

