-- ==== Sys2Proof/Machine/Float.lean ====
section
/-!
DEFINITION. Floating formats and exact arithmetic with one rounding, conversions, exp2 and reciprocal (spec
10_number_formats.md R201 to R205, 14_vector_matrix.md R307).
-/
namespace Sys2Proof.Machine

/-- A floating format: fraction bits and exponent bits (R201). -/
structure FSpec where
  fb : Nat
  eb : Nat
  deriving DecidableEq, Repr

/-- The format of an element-type code: 8 h, 9 bf, 10 f (R196, R201). -/
def fspec (ty : Nat) : FSpec := if ty = 8 then ⟨10, 5⟩ else if ty = 9 then ⟨7, 8⟩ else ⟨23, 8⟩

/-- The format of the 17-bit rule: binary32 with 16 fraction bits (R307). -/
def spec17 : FSpec := ⟨16, 8⟩

/-- A floating value: a NaN with whether it signals, an infinity, or the number ±m · 2^e with its sign. -/
inductive FV where
  | nan (sig : Bool)
  | inf (neg : Bool)
  | fin (neg : Bool) (m : Nat) (e : Int)
  deriving DecidableEq, Repr

/-- The exponent bias. -/
def FSpec.bias (k : FSpec) : Nat := 2 ^ (k.eb - 1) - 1

/-- The exponent of the last place of the smallest numbers. -/
def FSpec.low (k : FSpec) : Int := 1 - (k.bias : Int) - k.fb

/-- The canonical NaN (R201). -/
def FSpec.canon (k : FSpec) : Nat := (2 ^ k.eb - 1) * 2 ^ k.fb + 2 ^ (k.fb - 1)

/-- Infinity. -/
def FSpec.infinity (k : FSpec) (neg : Bool) : Nat := (2 ^ k.eb - 1) * 2 ^ k.fb + (if neg then 2 ^ (k.eb + k.fb) else 0)

/-- Read a format's bits. -/
def fdec (k : FSpec) (x : Nat) : FV :=
  let neg := x.testBit (k.eb + k.fb)
  let ex := x / 2 ^ k.fb % 2 ^ k.eb
  let fr := x % 2 ^ k.fb
  if ex = 2 ^ k.eb - 1 then (if fr = 0 then .inf neg else .nan (!fr.testBit (k.fb - 1)))
  else if ex = 0 then .fin neg fr k.low
  else .fin neg (2 ^ k.fb + fr) (k.low + (ex - 1 : Nat))

/-- Bits of a number: 0 for zero. -/
def bitLen (m : Nat) : Nat := if m = 0 then 0 else m.log2 + 1

/-- Round m on a grid of 2^d, to nearest even or down; `sticky` says that the exact value lies strictly between m and
m + 1. -/
def roundAt (rtz : Bool) (m : Nat) (d : Nat) (sticky : Bool) : Nat :=
  let g := m >>> d
  let rem := m % 2 ^ d
  let half := 2 ^ d / 2
  if rtz then g
  else if d = 0 then g
  else if half < rem ∨ (rem = half ∧ (sticky ∨ g % 2 = 1)) then g + 1 else g

/-- Round ±m · 2^e to a format once: to nearest even, or toward zero (R202). With `sticky`, m has enough bits that the grid is
coarser than 2^e. -/
def roundFin (k : FSpec) (rtz neg : Bool) (m : Nat) (e : Int) (sticky : Bool) : Nat × BitVec 3 :=
  let top : Int := e + (bitLen m : Int) - 1
  let q := max (top - k.fb) k.low
  let sg := if neg then 2 ^ (k.eb + k.fb) else 0
  let big := (2 ^ k.eb - 1) * 2 ^ k.fb
  if m = 0 then (sg, 0)
  else if (k.bias : Int) + 2 < top then (if rtz then big - 1 + sg else k.infinity neg, fpsOvf)
  else
    let g := if q ≤ e then m <<< (e - q).toNat else roundAt rtz m (q - e).toNat sticky
    let r := (q - k.low).toNat * 2 ^ k.fb + g
    if big ≤ r then (if rtz then big - 1 + sg else k.infinity neg, fpsOvf) else (r + sg, 0)

/-- Deliver a value in a format (R202) (DEDUCED, log 20). -/
def fenc (k : FSpec) (rtz : Bool) (x : FV) : Nat × BitVec 3 :=
  match x with
  | .nan _ => (k.canon, 0)
  | .inf neg => (k.infinity neg, 0)
  | .fin neg m e => roundFin k rtz neg m e false

/-- Does a value signal? -/
def signals : FV → Bool
  | .nan sig => sig
  | .inf _ => false
  | .fin _ _ _ => false

/-- Is a value a NaN? -/
def isNan : FV → Bool
  | .nan _ => true
  | .inf _ => false
  | .fin _ _ _ => false

/-- INV for consumed operands that signal (R202). -/
def invOf (b : Bool) : BitVec 3 := if b then fpsInv else 0

/-- The integer of ±m. -/
def signedMag (neg : Bool) (m : Nat) : Int := if neg then -(m : Int) else (m : Int)

/-- The exact sum of two values (R202). -/
def addFV (a b : FV) : FV × BitVec 3 :=
  match a, b with
  | .nan x, .nan y => (.nan false, invOf (x || y))
  | .nan x, .inf _ => (.nan false, invOf x)
  | .nan x, .fin _ _ _ => (.nan false, invOf x)
  | .inf _, .nan y => (.nan false, invOf y)
  | .fin _ _ _, .nan y => (.nan false, invOf y)
  | .inf x, .inf y => if x = y then (.inf x, 0) else (.nan false, fpsInv)
  | .inf x, .fin _ _ _ => (.inf x, 0)
  | .fin _ _ _, .inf y => (.inf y, 0)
  | .fin na ma ea, .fin nb mb eb =>
    let e := min ea eb
    let x := signedMag na (ma <<< (ea - e).toNat) + signedMag nb (mb <<< (eb - e).toNat)
    if x = 0 then (.fin (na && nb && decide (ma = 0) && decide (mb = 0)) 0 0, 0)
    else (.fin (decide (x < 0)) x.natAbs e, 0)

/-- The value with its sign inverted. -/
def negFV : FV → FV
  | .nan sig => .nan sig
  | .inf neg => .inf (!neg)
  | .fin neg m e => .fin (!neg) m e

/-- The exact product of two values (R202). -/
def mulFV (a b : FV) : FV × BitVec 3 :=
  match a, b with
  | .nan x, .nan y => (.nan false, invOf (x || y))
  | .nan x, .inf _ => (.nan false, invOf x)
  | .nan x, .fin _ _ _ => (.nan false, invOf x)
  | .inf _, .nan y => (.nan false, invOf y)
  | .fin _ _ _, .nan y => (.nan false, invOf y)
  | .inf x, .inf y => (.inf (x != y), 0)
  | .inf x, .fin y m _ => if m = 0 then (.nan false, fpsInv) else (.inf (x != y), 0)
  | .fin x m _, .inf y => if m = 0 then (.nan false, fpsInv) else (.inf (x != y), 0)
  | .fin x ma ea, .fin y mb eb => (.fin (x != y) (ma * mb) (ea + eb), 0)

/-- The exact a · b + c; every NaN that signals and 0 · ∞ raise INV (R297). -/
def fmaFV (a b c : FV) : FV × BitVec 3 :=
  let p := mulFV a b
  let r := addFV p.1 c
  (r.1, p.2 ||| r.2)

/-- Is one number below another, −0 below +0 (R202)? NaNs are excluded by the callers. -/
def lessFV (a b : FV) : Bool :=
  match a, b with
  | .inf x, .inf y => x && !y
  | .inf x, _ => x
  | _, .inf y => !y
  | .fin na ma ea, .fin nb mb eb =>
    let e := min ea eb
    let x := signedMag na (ma <<< (ea - e).toNat)
    let y := signedMag nb (mb <<< (eb - e).toNat)
    decide (x < y) || (decide (x = 0) && decide (y = 0) && na && !nb)
  | _, _ => false

/-- Are two numbers equal, −0 equal to +0 (R300)? -/
def equalFV (a b : FV) : Bool :=
  match a, b with
  | .inf x, .inf y => decide (x = y)
  | .fin na ma ea, .fin nb mb eb =>
    let e := min ea eb
    decide (signedMag na (ma <<< (ea - e).toNat) = signedMag nb (mb <<< (eb - e).toNat))
  | _, _ => false

/-- Minimum or maximum of two values, as bits of a format (R202). -/
def extremeF (k : FSpec) (wantMax : Bool) (x y : Nat) : Nat × BitVec 3 :=
  let a := fdec k x
  let b := fdec k y
  if isNan a || isNan b then (k.canon, invOf (signals a || signals b))
  else if wantMax then (if lessFV a b then y else x, 0) else (if lessFV b a then y else x, 0)

/-- A floating operation on bits: decode, combine exactly, round once. -/
def floatOp2 (op : FV → FV → FV × BitVec 3) (k : FSpec) (rtz : Bool) (x y : Nat) : Nat × BitVec 3 :=
  let r := op (fdec k x) (fdec k y)
  let z := fenc k rtz r.1
  (z.1, r.2 ||| z.2)

/-! ### Conversions (R203) -/

/-- The integer nearest to ±m · 2^e, or toward zero. -/
def roundInt (rtz neg : Bool) (m : Nat) (e : Int) : Int :=
  signedMag neg (if 0 ≤ e then m <<< e.toNat else roundAt rtz m (-e).toNat false)

/-- A floating value to an integer of `n` bits (R203). -/
def toIntFV (rtz sg : Bool) (n : Nat) (x : FV) : Nat × BitVec 3 :=
  match x with
  | .nan _ => (0, fpsInv)
  | .inf neg => saturate sg n (signedMag neg (2 ^ 65))
  | .fin neg m e => saturate sg n (roundInt rtz neg m e)

/-- An integer to a floating format (R203). -/
def ofIntF (k : FSpec) (rtz : Bool) (x : Int) : Nat × BitVec 3 := roundFin k rtz (decide (x < 0)) x.natAbs 0 false

/-- The width in bits of a plain element type. -/
def tyBits (ty : BitVec 4) : Nat := 8 * elemSize ty

/-- Is an integer type signed (R196)? -/
def tySigned (ty : BitVec 4) : Bool := decide (ty.toNat < 4)

/-- The value of an integer element. -/
def intVal (ty : BitVec 4) (x : Nat) : Int := if tySigned ty then signed (tyBits ty) x else (x % 2 ^ tyBits ty : Nat)

/-- Convert an integer to a plain type: integers saturate, floats round (R203). -/
def convertInt (dst : BitVec 4) (rtz : Bool) (x : Int) : Nat × BitVec 3 :=
  if isInt dst then saturate (tySigned dst) (tyBits dst) x else ofIntF (fspec dst.toNat) rtz x

/-- Convert a floating value to a plain type (R203). -/
def convertFV (dst : BitVec 4) (rtz : Bool) (x : FV) : Nat × BitVec 3 :=
  if isInt dst then toIntFV rtz (tySigned dst) (tyBits dst) x
  else
    let z := fenc (fspec dst.toNat) rtz x
    (z.1, z.2 ||| invOf (signals x))

/-- Convert an element between plain types (R203). -/
def convertElem (src dst : BitVec 4) (rtz : Bool) (x : Nat) : Nat × BitVec 3 :=
  if isInt src then convertInt dst rtz (intVal src x) else convertFV dst rtz (fdec (fspec src.toNat) x)

/-! ### exp2 and reciprocal (R307) -/

/-- The fraction bits of the fixed-point arithmetic of exp2. -/
def expBits : Nat := 240

/-- ln 2 · 2^256, rounded down. -/
def ln2Fixed : Nat := 0xb17217f7d1cf79abc9e3b39803f2f6af40f343267298b62d8a0d175b8baafa2b

/-- The series of e^y in fixed point, every term rounded down. -/
def expSeries (y : Nat) : Nat → Nat → Nat → Nat → Nat
  | 0, _, _, acc => acc
  | n + 1, i, term, acc =>
    let u := ((term * y) >>> expBits) / i
    expSeries y n (i + 1) u (acc + u)

/-- 2^(f / 2^240) · 2^240 for f below 2^240, rounded down; it is never exact for f ≠ 0, since such a power is irrational. -/
def exp2Fixed (f : Nat) : Nat := expSeries ((f * ln2Fixed) >>> 256) 64 1 (2 ^ expBits) (2 ^ expBits)

/-- 2^x rounded once to a format (R307). -/
def exp2Fin (k : FSpec) (rtz neg : Bool) (m : Nat) (e : Int) : Nat × BitVec 3 :=
  if m = 0 then roundFin k rtz false 1 0 false
  else if 12 ≤ e + (bitLen m : Int) then
    (if neg then roundFin k rtz false 1 (-5000) false else roundFin k rtz false 1 5000 false)
  else
    let x := signedMag neg (m <<< (e + expBits).toNat)
    let n := x / (2 ^ expBits : Nat)
    let f := (x % (2 ^ expBits : Nat)).toNat
    if f = 0 then roundFin k rtz false 1 n false else roundFin k rtz false (exp2Fixed f) (n - expBits) true

/-- 2^x of a value in a format (R307). -/
def exp2FV (k : FSpec) (rtz : Bool) (x : FV) : Nat × BitVec 3 :=
  match x with
  | .nan sig => (k.canon, invOf sig)
  | .inf neg => (if neg then 0 else k.infinity false, 0)
  | .fin neg m e => exp2Fin k rtz neg m e

/-- 1 / x of a value in a format (R307). -/
def rcpFV (k : FSpec) (rtz : Bool) (x : FV) : Nat × BitVec 3 :=
  match x with
  | .nan sig => (k.canon, invOf sig)
  | .inf neg => (if neg then 2 ^ (k.eb + k.fb) else 0, 0)
  | .fin neg m e =>
    if m = 0 then (k.infinity neg, 0)
    else
      let p := bitLen m + 80
      roundFin k rtz neg (2 ^ p / m) (-e - p) (decide (2 ^ p % m ≠ 0))

/-- A function of VEXP2 or VRCP on bits: f by the 17-bit rule, h and bf in their own format (R307). -/
def funcF (fn : FSpec → Bool → FV → Nat × BitVec 3) (ty : Nat) (rtz : Bool) (x : Nat) : Nat × BitVec 3 :=
  if ty = 10 then
    let v := fdec (fspec 10) x
    let z := fn spec17 rtz v
    (if isNan v then (fspec 10).canon else z.1 * 2 ^ 7, z.2)
  else fn (fspec ty) rtz (fdec (fspec ty) x)

/-- Exp2Q of binary32 bits (R307). -/
def exp2Q (x : Nat) : Nat × BitVec 3 := funcF exp2FV 10 false x

/-! ### Binary32 steps used by softmax (R308, R325) -/

/-- The binary32 sum. -/
def addF32 (x y : Nat) : Nat × BitVec 3 := floatOp2 addFV (fspec 10) false x y

/-- The binary32 difference. -/
def subF32 (x y : Nat) : Nat × BitVec 3 := floatOp2 (fun a b => addFV a (negFV b)) (fspec 10) false x y

/-- x · a + y · b with one rounding (R308). -/
def dotF32 (x a y b : Nat) : Nat × BitVec 3 :=
  let d := fdec (fspec 10)
  let p := mulFV (d x) (d a)
  let q := mulFV (d y) (d b)
  let r := addFV p.1 q.1
  let z := fenc (fspec 10) false r.1
  (z.1, p.2 ||| q.2 ||| r.2 ||| z.2)

/-- −∞ in binary32. -/
def negInf32 : Nat := 0xFF800000

end Sys2Proof.Machine
end

