-- ==== Sys2Proof/Machine/VecOps.lean ====
section
/-!
DEFINITION. Operations on vector registers: lanes, masks, reductions, permutes, blocks and softmax states (spec
14_vector_matrix.md R296 to R308, 10_number_formats.md R198, R204, R205, R210).
-/
namespace Sys2Proof.Machine

/-- A lane's result with the flags it raises. -/
abbrev Lane := Nat × BitVec 3

/-- The first `n` elements of `w` bits of a number. -/
def unpack (w : Nat) : Nat → Nat → List Nat
  | 0, _ => []
  | n + 1, x => x % 2 ^ w :: unpack w n (x >>> w)

/-- Elements of `w` bits as one number. -/
def pack (w : Nat) : List Nat → Nat
  | [] => 0
  | x :: l => x % 2 ^ w + pack w l <<< w

/-- The register image of a number. -/
def toVReg (x : Nat) : VReg := BitVec.ofNat 16384 x

/-- The lanes of a register at a plain type (R198). -/
def lanesOf (ty : BitVec 4) (v : VReg) : List Nat := unpack (tyBits ty) (lanes ty) v.toNat

/-- The flags of every lane of a list. -/
def laneFlags (l : List Lane) : BitVec 3 := l.foldl (fun a x => a ||| x.2) 0

/-- Lanes whose bit in `k` is set take their result and raise its flags; the others keep the old lane (R296). -/
def mergeLanes : Nat → List Nat → List Lane → List Nat × BitVec 3
  | k, o :: os, r :: rs =>
    let m := mergeLanes (k / 2) os rs
    if k % 2 = 1 then (r.1 :: m.1, r.2 ||| m.2) else (o :: m.1, m.2)
  | _, _, _ => ([], 0)

/-- The lanes that act, as a number: all, or those of the mask (R296). -/
def actMask (t : Task) (f : VecF) : Nat := if masked f then (predReg t (f.s3.toNat % 16)).toNat else 2 ^ 2048 - 1

/-- The register that a merge keeps: the old destination, or zero for a result that goes only to the ring (R296). -/
def oldDst (t : Task) (f : VecF) : VReg := if f.nwb = 1 then 0 else vectorIn t f.dst

/-- A vector result of the VEC slot (R226). -/
def vecOut (f : VecF) (lat : Nat) (x : VReg) (fl : BitVec 3) (s : State) : Act :=
  .done (pushDue s lat 4 (.vector (if f.nwb = 1 then none else some f.dst.toNat) x) (some .vec) fl)

/-- Results by lane, merged under a mask. -/
def laneOut (f : VecF) (lat : Nat) (k : Nat) (res : List Lane) (s : State) : Act :=
  let m := mergeLanes k (lanesOf f.ty (oldDst (curTask s) f)) res
  vecOut f lat (toVReg (pack (tyBits f.ty) m.1)) m.2 s

/-- An element-wise instruction of one source. -/
def vec1 (lat : Nat) (op : Nat → Lane) (f : VecF) (s : State) : Act :=
  let t := curTask s
  laneOut f lat (actMask t f) ((lanesOf f.ty (vectorIn t f.s1)).map op) s

/-- An element-wise instruction of two sources. -/
def vec2 (lat : Nat) (op : Nat → Nat → Lane) (f : VecF) (s : State) : Act :=
  let t := curTask s
  laneOut f lat (actMask t f) (List.zipWith op (lanesOf f.ty (vectorIn t f.s1)) (lanesOf f.ty (vectorIn t f.s2))) s

/-- Three lists combined. -/
def zip3 (op : Nat → Nat → Nat → Lane) : List Nat → List Nat → List Nat → List Lane
  | a :: as, b :: bs, c :: cs => op a b c :: zip3 op as bs cs
  | _, _, _ => []

/-- The latency of the arithmetic whose float forms take two bundles more (R294). -/
def arithLat (ty : BitVec 4) : Nat := if isInt ty then 5 else 7

/-- An integer result modulo 2^N. -/
def wrapLane (ty : BitVec 4) (x : Int) : Lane := (unsign (tyBits ty) x, 0)

/-- Addition of two lanes (R297). -/
def addLane (ty : BitVec 4) (rtz : Bool) (a b : Nat) : Lane :=
  if isInt ty then ((a + b) % 2 ^ tyBits ty, 0) else floatOp2 addFV (fspec ty.toNat) rtz a b

/-- Subtraction (R297). -/
def subLane (ty : BitVec 4) (rtz : Bool) (a b : Nat) : Lane :=
  if isInt ty then wrapLane ty ((a : Int) - b)
  else floatOp2 (fun x y => addFV x (negFV y)) (fspec ty.toNat) rtz a b

/-- Multiplication (R297). -/
def mulLane (ty : BitVec 4) (rtz : Bool) (a b : Nat) : Lane :=
  if isInt ty then (a * b % 2 ^ tyBits ty, 0) else floatOp2 mulFV (fspec ty.toNat) rtz a b

/-- Fused multiply-add (R297). -/
def fmaLane (ty : BitVec 4) (rtz : Bool) (a b c : Nat) : Lane :=
  if isInt ty then ((a * b + c) % 2 ^ tyBits ty, 0)
  else
    let k := fspec ty.toNat
    let r := fmaFV (fdec k a) (fdec k b) (fdec k c)
    let z := fenc k rtz r.1
    (z.1, r.2 ||| z.2)

/-- Minimum or maximum (R297). -/
def extremeLane (ty : BitVec 4) (wantMax : Bool) (a b : Nat) : Lane :=
  if isInt ty then
    (if wantMax then (if intVal ty a < intVal ty b then b else a) else (if intVal ty b < intVal ty a then b else a), 0)
  else extremeF (fspec ty.toNat) wantMax a b

/-- A sign operation on a float: NaNs become canonical (R297). -/
def signLane (ty : BitVec 4) (op : Nat → Nat) (a : Nat) : Lane :=
  let k := fspec ty.toNat
  if isNan (fdec k a) then (k.canon, invOf (signals (fdec k a))) else (op a, 0)

/-- Absolute value (R297). -/
def absLane (ty : BitVec 4) (a : Nat) : Lane :=
  if isInt ty then (if tySigned ty then unsign (tyBits ty) ((intVal ty a).natAbs : Int) else a, 0)
  else signLane ty (fun x => x % 2 ^ (tyBits ty - 1)) a

/-- Negation (R297). -/
def negLane (ty : BitVec 4) (a : Nat) : Lane :=
  if isInt ty then wrapLane ty (-(a : Int)) else signLane ty (fun x => x ^^^ 2 ^ (tyBits ty - 1)) a

/-- Saturate to the type's range (R297). -/
def satLane (ty : BitVec 4) (x : Int) : Lane := saturate (tySigned ty) (tyBits ty) x

/-- The high half of the product (R297). -/
def mulhLane (ty : BitVec 4) (a b : Nat) : Lane := wrapLane ty (intVal ty a * intVal ty b / (2 ^ tyBits ty : Nat))

/-- A shift by the second lane modulo the width (R298). -/
def shiftLane (ty : BitVec 4) (op : Nat → Nat → Nat) (a b : Nat) : Lane := (op a (b % tyBits ty) % 2 ^ tyBits ty, 0)

/-- The arithmetic right shift of a lane (R298). -/
def sarLane (ty : BitVec 4) (a b : Nat) : Lane :=
  wrapLane ty (signed (tyBits ty) a / (2 ^ (b % tyBits ty) : Nat))

/-! ### Reductions (R210, R299) -/

/-- One level of the pairwise tree: an absent lane leaves the other as it is. -/
def pairUp (op : Nat → Nat → Lane) : List (Option Nat) → List (Option Nat) × BitVec 3
  | a :: b :: l =>
    let r := pairUp op l
    match a, b with
    | some x, some y => (some (op x y).1 :: r.1, (op x y).2 ||| r.2)
    | some x, none => (some x :: r.1, r.2)
    | none, some y => (some y :: r.1, r.2)
    | none, none => (none :: r.1, r.2)
  | l => (l, 0)

/-- The pairwise tree over a power of two of lanes; `n` counts the levels. -/
def treeUp (op : Nat → Nat → Lane) : Nat → List (Option Nat) → List (Option Nat) × BitVec 3
  | 0, l => (l, 0)
  | n + 1, l =>
    let a := pairUp op l
    let b := treeUp op n a.1
    (b.1, a.2 ||| b.2)

/-- Split a list into groups of `n`. -/
def groupsOf {α : Type} (n : Nat) : Nat → List α → List (List α)
  | 0, _ => []
  | k + 1, l => l.take n :: groupsOf n k (l.drop n)

/-- Lanes with the absent ones of a mask left out. -/
def presentLanes : Nat → List Nat → List (Option Nat)
  | _, [] => []
  | k, x :: l => (if k % 2 = 1 then some x else none) :: presentLanes (k / 2) l

/-- One group by the pairwise tree, with the value of an empty group. -/
def reduceTree (op : Nat → Nat → Lane) (empty : Nat) (l : List (Option Nat)) : Lane :=
  let r := treeUp op l.length.log2 l
  match r.1 with
  | some x :: _ => (x, r.2)
  | _ => (empty, r.2)

/-- One group summed exactly as integers and saturated (R210). -/
def reduceSumInt (ty : BitVec 4) (l : List (Option Nat)) : Lane :=
  satLane ty (l.foldl (fun a x =>
    match x with
    | some y => a + intVal ty y
    | none => a) 0)

/-- A reduction in 2^g groups; the lanes beyond the groups are zero (R299). -/
def reduceOut (one : List (Option Nat) → Lane) (f : VecF) (s : State) : Act :=
  let t := curTask s
  let n := lanes f.ty
  let g := 2 ^ f.s2.toNat
  let l := presentLanes (actMask t f) (lanesOf f.ty (vectorIn t f.s1))
  let r := (groupsOf (n / g) g l).map one
  vecOut f 12 (toVReg (pack (tyBits f.ty) (r.map Prod.fst))) (laneFlags r) s

/-- The value of an empty maximum or minimum (R210). -/
def emptyExtreme (ty : BitVec 4) (wantMax : Bool) : Nat :=
  if isInt ty then
    (if tySigned ty then (if wantMax then 2 ^ (tyBits ty - 1) else 2 ^ (tyBits ty - 1) - 1)
     else (if wantMax then 0 else 2 ^ tyBits ty - 1))
  else (fspec ty.toNat).infinity wantMax

/-! ### Compares (R300) -/

/-- The condition of VCMP on two lanes, with INV for an operand that signals. -/
def cmpLane (ty : BitVec 4) (cond : Nat) (a b : Nat) : Bool × BitVec 3 :=
  if isInt ty then
    let x := intVal ty a
    let y := intVal ty b
    (match cond with
     | 0 => decide (x = y)
     | 1 => decide (x ≠ y)
     | 2 => decide (x < y)
     | 3 => decide (x ≤ y)
     | 4 => decide (y < x)
     | _ => decide (y ≤ x), 0)
  else
    let x := fdec (fspec ty.toNat) a
    let y := fdec (fspec ty.toNat) b
    let un := isNan x || isNan y
    let lt := fun p q => lessFV p q && !equalFV p q
    (match cond with
     | 0 => !un && equalFV x y
     | 1 => un || !equalFV x y
     | 2 => !un && lt x y
     | 3 => !un && (lt x y || equalFV x y)
     | 4 => !un && lt y x
     | 5 => !un && (lt y x || equalFV x y)
     | 6 => !un
     | _ => un, invOf (signals x || signals y))

/-- The predicate of lane conditions under a mask: masked-off lanes write 0. -/
def packPred : Nat → List (Bool × BitVec 3) → Nat × BitVec 3
  | _, [] => (0, 0)
  | k, x :: l =>
    let r := packPred (k / 2) l
    if k % 2 = 1 then ((if x.1 then 1 else 0) + 2 * r.1, x.2 ||| r.2) else (2 * r.1, r.2)

/-! ### Blocks (R198, R204, R205) -/

/-- Byte `i` of a register. -/
def byteOf (v : Nat) (i : Nat) : Nat := v >>> (8 * i) % 256

/-- Bit `j` of plane `p` of block `b` of a register whose blocks hold `k` planes (R198). -/
def planeBit (v k b p j : Nat) : Bool := v.testBit (8 * (4 * k * b + 4 * (k - 1 - p)) + j)

/-- The leading `take` planes of an element of a block with `k` planes, as an unsigned number. -/
def leadBits (v k b j : Nat) : Nat → Nat
  | 0 => 0
  | n + 1 => 2 * leadBits v k b j n + (if planeBit v k b (k - 1 - n) j then 1 else 0)

/-- The mantissa of element `e`: its leading `take` planes in two's complement (R204, R205). -/
def blockMant (v k take e : Nat) : Int := signed take (leadBits v k (e / 32) (e % 32) take)

/-- The value of a block element: m · 2^(E − 127 − (k − 1)), or the mid-rise value of a nested weight (R204, R205). -/
def blockValue (nested : Bool) (take : Nat) (m : Int) (ex : Nat) : FV :=
  if nested then
    let x := 2 * m + 1
    .fin (decide (x < 0)) x.natAbs ((8 : Int) - take - 1 + ex - 127 - 7)
  else .fin (decide (m < 0)) m.natAbs ((ex : Int) - 127 - (take - 1 : Nat))

/-- The width of a subfield of R197. -/
def widthOf (sub : Nat) : Nat := sub + 2

/-- Set the plane words of one block of `k` planes from 32 mantissas (R198, R306). -/
def planeWords (k : Nat) (ms : List Nat) : List Nat :=
  (List.range k).map (fun i => pack 1 (ms.map (fun m => if m.testBit (k - 1 - i) then 1 else 0)))

/-! ### Softmax states (R308) -/

/-- Combine the o lanes of two states. -/
def mergeO (a b : Nat) : List Nat → List Nat → List Lane
  | x :: xs, y :: ys => dotF32 x a y b :: mergeO a b xs ys
  | _, _ => []

/-- Merge two segments whose last lanes are m and s (R308). -/
def mergeSeg (x y : List Nat) : List Nat × BitVec 3 :=
  let g := x.length
  let ma := x.getD (g - 2) 0
  let mb := y.getD (g - 2) 0
  if ma = negInf32 ∧ mb = negInf32 then (List.replicate (g - 2) 0 ++ [negInf32, 0], 0)
  else if mb = negInf32 then (x, 0)
  else if ma = negInf32 then (y, 0)
  else
    let m := extremeF (fspec 10) true ma mb
    let da := subF32 ma m.1
    let db := subF32 mb m.1
    let a := exp2Q da.1
    let b := exp2Q db.1
    let sm := dotF32 (x.getD (g - 1) 0) a.1 (y.getD (g - 1) 0) b.1
    let o := mergeO a.1 b.1 (x.take (g - 2)) (y.take (g - 2))
    (o.map Prod.fst ++ [m.1, sm.1],
      m.2 ||| da.2 ||| db.2 ||| a.2 ||| b.2 ||| sm.2 ||| laneFlags o)

end Sys2Proof.Machine
end

