-- ==== Sys2Proof/Machine/Vector.lean ====
section
/-!
DEFINITION. The vector slot VEC (spec 14_vector_matrix.md R294 to R308) and GIDX (R309).
-/
namespace Sys2Proof.Machine

/-- The RTZ bit of a syllable (R296). -/
def rtzBit (f : VecF) : Bool := f.md.getLsbD 0

/-- A scalar read through a vector field (R301). -/
def scalarInV (t : Task) (c : BitVec 10) : Word := scalarCode t c.toNat

/-- Lanes `lo` to `lo + n - 1`, as a mask. -/
def laneRange (lo n : Nat) : Nat := (2 ^ n - 1) <<< lo

/-- Results placed at a lane and the old lanes elsewhere (R302). -/
def placeAt (f : VecF) (lat lo : Nat) (res : List Lane) (k : Nat) (s : State) : Act :=
  laneOut f lat (k &&& laneRange lo res.length) (List.replicate lo (0, 0) ++ res ++ List.replicate (lanes f.ty) (0, 0)) s

/-- The wider source type of VPACK (R303). -/
def packSrc (ty : BitVec 4) : BitVec 4 := if isInt ty then ty + 1 else 10

/-- The narrower source type of VUNPK (R303). -/
def unpackSrc (f : VecF) : BitVec 4 := if isInt f.ty then f.ty - 1 else if f.md = 2 then 8 else 9

/-- Element `e` of offset-binary codes: 4 bits or a byte (R198, R304). -/
def offsetCode (v : Nat) (wide : Bool) (e : Nat) : Nat := if wide then v >>> (8 * e) % 256 else v >>> (4 * e) % 16

/-- A zero point: a side byte, its low 4 bits for ob4 (R198). -/
def zeroPoint (v : Nat) (wide : Bool) (e : Nat) : Nat := if wide then byteOf v (e / 32) else byteOf v (e / 32) % 16

/-- The predicate that a compare writes (R300). -/
def predOut (f : VecF) (x : Nat) (fl : BitVec 3) (s : State) : Act :=
  .done (pushDue s 5 4 (.pred (f.dst.toNat % 16) (BitVec.ofNat 2048 x)) none fl)

/-- A bitwise operation on predicates (R300). -/
def predOp (op : Pred → Pred → Pred) (f : VecF) (s : State) : Act :=
  predOut f (op (predReg (curTask s) (f.s1.toNat % 16)) (predReg (curTask s) (f.s2.toNat % 16))).toNat 0 s

/-- One lane of VPERM (R301). -/
def permLane (a : List Nat) (idx : Nat) : Lane := (a.getD idx 0, 0)

/-- The elements that VPLX delivers (R305). -/
def plxLane (f : VecF) (v side : Nat) (e : Nat) : Lane :=
  let code := f.s3.toNat % 16
  let take := widthOf (f.s3.toNat / 16 % 8)
  let nested := decide (code = 14)
  let k := if nested then 8 else take
  if 32 * (2048 / (4 * k)) ≤ e then (0, 0)
  else
    let m := blockMant v k take e
    if f.ty = 0 then (unsign 8 m, 0)
    else fenc (fspec f.ty.toNat) (f.s3.getLsbD 7) (blockValue nested take m (byteOf side (e / 32)))

/-- The plane words that VPLI builds from i8 lanes: block by block, with the saturation flag (R306). -/
def pliBlocks (k : Nat) (ls : List Nat) : List Nat × BitVec 3 :=
  let nb := min 64 (2048 / (4 * k))
  let sat := (ls.take (32 * nb)).map (fun x => saturate true k (signed 8 x))
  ((groupsOf 32 nb (sat.map Prod.fst)).flatMap (planeWords k), laneFlags sat)

/-- VADD (R297). -/
def sylVadd (f : VecF) (s : State) : Act :=
  vec2 (arithLat f.ty) (addLane f.ty (rtzBit f)) f s

/-- VADD with its gate. -/
def execVadd (h : Head) (f : VecF) (s : State) : Host.Outcome State Fault Refusal :=
  runGated (.vadd h f) (sylVadd f) s

/-- VSUB (R297). -/
def sylVsub (f : VecF) (s : State) : Act :=
  vec2 (arithLat f.ty) (subLane f.ty (rtzBit f)) f s

/-- VSUB with its gate. -/
def execVsub (h : Head) (f : VecF) (s : State) : Host.Outcome State Fault Refusal :=
  runGated (.vsub h f) (sylVsub f) s

/-- VMUL, L = 7 (R294, R297). -/
def sylVmul (f : VecF) (s : State) : Act :=
  vec2 7 (mulLane f.ty (rtzBit f)) f s

/-- VMUL with its gate. -/
def execVmul (h : Head) (f : VecF) (s : State) : Host.Outcome State Fault Refusal :=
  runGated (.vmul h f) (sylVmul f) s

/-- VFMA, L = 8, no mask (R294, R297). -/
def sylVfma (f : VecF) (s : State) : Act :=
  let t := curTask s
  laneOut f 8 (2 ^ 2048 - 1)
    (zip3 (fmaLane f.ty (rtzBit f)) (lanesOf f.ty (vectorIn t f.s1)) (lanesOf f.ty (vectorIn t f.s2))
      (lanesOf f.ty (vectorIn t f.s3))) s

/-- VFMA with its gate. -/
def execVfma (h : Head) (f : VecF) (s : State) : Host.Outcome State Fault Refusal :=
  runGated (.vfma h f) (sylVfma f) s

/-- VMIN (R297). -/
def sylVmin (f : VecF) (s : State) : Act :=
  vec2 (arithLat f.ty) (extremeLane f.ty false) f s

/-- VMIN with its gate. -/
def execVmin (h : Head) (f : VecF) (s : State) : Host.Outcome State Fault Refusal :=
  runGated (.vmin h f) (sylVmin f) s

/-- VMAX (R297). -/
def sylVmax (f : VecF) (s : State) : Act :=
  vec2 (arithLat f.ty) (extremeLane f.ty true) f s

/-- VMAX with its gate. -/
def execVmax (h : Head) (f : VecF) (s : State) : Host.Outcome State Fault Refusal :=
  runGated (.vmax h f) (sylVmax f) s

/-- VABS (R297). -/
def sylVabs (f : VecF) (s : State) : Act :=
  vec1 (arithLat f.ty) (absLane f.ty) f s

/-- VABS with its gate. -/
def execVabs (h : Head) (f : VecF) (s : State) : Host.Outcome State Fault Refusal :=
  runGated (.vabs h f) (sylVabs f) s

/-- VNEG (R297). -/
def sylVneg (f : VecF) (s : State) : Act :=
  vec1 (arithLat f.ty) (negLane f.ty) f s

/-- VNEG with its gate. -/
def execVneg (h : Head) (f : VecF) (s : State) : Host.Outcome State Fault Refusal :=
  runGated (.vneg h f) (sylVneg f) s

/-- VADDS (R297). -/
def sylVadds (f : VecF) (s : State) : Act :=
  vec2 5 (fun a b => satLane f.ty (intVal f.ty a + intVal f.ty b)) f s

/-- VADDS with its gate. -/
def execVadds (h : Head) (f : VecF) (s : State) : Host.Outcome State Fault Refusal :=
  runGated (.vadds h f) (sylVadds f) s

/-- VSUBS (R297). -/
def sylVsubs (f : VecF) (s : State) : Act :=
  vec2 5 (fun a b => satLane f.ty (intVal f.ty a - intVal f.ty b)) f s

/-- VSUBS with its gate. -/
def execVsubs (h : Head) (f : VecF) (s : State) : Host.Outcome State Fault Refusal :=
  runGated (.vsubs h f) (sylVsubs f) s

/-- VMULH, L = 7 (R294, R297). -/
def sylVmulh (f : VecF) (s : State) : Act :=
  vec2 7 (mulhLane f.ty) f s

/-- VMULH with its gate. -/
def execVmulh (h : Head) (f : VecF) (s : State) : Host.Outcome State Fault Refusal :=
  runGated (.vmulh h f) (sylVmulh f) s

/-- VAND (R298). -/
def sylVand (f : VecF) (s : State) : Act :=
  vec2 5 (fun a b => (a &&& b, 0)) f s

/-- VAND with its gate. -/
def execVand (h : Head) (f : VecF) (s : State) : Host.Outcome State Fault Refusal :=
  runGated (.vand h f) (sylVand f) s

/-- VOR (R298). -/
def sylVor (f : VecF) (s : State) : Act :=
  vec2 5 (fun a b => (a ||| b, 0)) f s

/-- VOR with its gate. -/
def execVor (h : Head) (f : VecF) (s : State) : Host.Outcome State Fault Refusal :=
  runGated (.vor h f) (sylVor f) s

/-- VXOR (R298). -/
def sylVxor (f : VecF) (s : State) : Act :=
  vec2 5 (fun a b => (a ^^^ b, 0)) f s

/-- VXOR with its gate. -/
def execVxor (h : Head) (f : VecF) (s : State) : Host.Outcome State Fault Refusal :=
  runGated (.vxor h f) (sylVxor f) s

/-- VANDN (R298). -/
def sylVandn (f : VecF) (s : State) : Act :=
  vec2 5 (fun a b => (a ^^^ (a &&& b), 0)) f s

/-- VANDN with its gate. -/
def execVandn (h : Head) (f : VecF) (s : State) : Host.Outcome State Fault Refusal :=
  runGated (.vandn h f) (sylVandn f) s

/-- VSHL (R298). -/
def sylVshl (f : VecF) (s : State) : Act :=
  vec2 5 (shiftLane f.ty (fun a n => a <<< n)) f s

/-- VSHL with its gate. -/
def execVshl (h : Head) (f : VecF) (s : State) : Host.Outcome State Fault Refusal :=
  runGated (.vshl h f) (sylVshl f) s

/-- VSHR (R298). -/
def sylVshr (f : VecF) (s : State) : Act :=
  vec2 5 (shiftLane f.ty (fun a n => a >>> n)) f s

/-- VSHR with its gate. -/
def execVshr (h : Head) (f : VecF) (s : State) : Host.Outcome State Fault Refusal :=
  runGated (.vshr h f) (sylVshr f) s

/-- VSAR (R298). -/
def sylVsar (f : VecF) (s : State) : Act :=
  vec2 5 (sarLane f.ty) f s

/-- VSAR with its gate. -/
def execVsar (h : Head) (f : VecF) (s : State) : Host.Outcome State Fault Refusal :=
  runGated (.vsar h f) (sylVsar f) s

/-- VPOPC (R298). -/
def sylVpopc (f : VecF) (s : State) : Act :=
  vec1 5 (fun a => (popCount a (tyBits f.ty), 0)) f s

/-- VPOPC with its gate. -/
def execVpopc (h : Head) (f : VecF) (s : State) : Host.Outcome State Fault Refusal :=
  runGated (.vpopc h f) (sylVpopc f) s

/-- VCVT, L = 7: part P of the longer side (R302). -/
def sylVcvt (f : VecF) (s : State) : Act :=
  let t := curTask s
  let src := f.s2.setWidth 4
  let ns := lanes src
  let nd := lanes f.ty
  let n := min ns nd
  let part := f.s2.toNat / 32 % 8
  let xs := ((lanesOf src (vectorIn t f.s1)).drop (if n < ns then part * n else 0)).take n
  placeAt f 7 (if n < nd then part * n else 0) (xs.map (convertElem src f.ty (f.s2.getLsbD 4))) (actMask t f) s

/-- VCVT with its gate. -/
def execVcvt (h : Head) (f : VecF) (s : State) : Host.Outcome State Fault Refusal :=
  runGated (.vcvt h f) (sylVcvt f) s

/-- VPACK, L = 7 (R303). -/
def sylVpack (f : VecF) (s : State) : Act :=
  let t := curTask s
  let src := packSrc f.ty
  let xs := lanesOf src (vectorIn t f.s1) ++ lanesOf src (vectorIn t f.s2)
  laneOut f 7 (actMask t f) (xs.map (convertElem src f.ty (rtzBit f))) s

/-- VPACK with its gate. -/
def execVpack (h : Head) (f : VecF) (s : State) : Host.Outcome State Fault Refusal :=
  runGated (.vpack h f) (sylVpack f) s

/-- VUNPK, L = 7: half H, exactly (R303). -/
def sylVunpk (f : VecF) (s : State) : Act :=
  let t := curTask s
  let src := unpackSrc f
  let n := lanes f.ty
  let xs := ((lanesOf src (vectorIn t f.s1)).drop (f.s2.toNat % 2 * n)).take n
  laneOut f 7 (2 ^ 2048 - 1) (xs.map (convertElem src f.ty false)) s

/-- VUNPK with its gate. -/
def execVunpk (h : Head) (f : VecF) (s : State) : Host.Outcome State Fault Refusal :=
  runGated (.vunpk h f) (sylVunpk f) s

/-- VRSUM (R299). -/
def sylVrsum (f : VecF) (s : State) : Act :=
  reduceOut
    (if isInt f.ty then reduceSumInt f.ty else reduceTree (floatOp2 addFV (fspec f.ty.toNat) (rtzBit f)) 0) f s

/-- VRSUM with its gate. -/
def execVrsum (h : Head) (f : VecF) (s : State) : Host.Outcome State Fault Refusal :=
  runGated (.vrsum h f) (sylVrsum f) s

/-- VRMAX (R299). -/
def sylVrmax (f : VecF) (s : State) : Act :=
  reduceOut (reduceTree (extremeLane f.ty true) (emptyExtreme f.ty true)) f s

/-- VRMAX with its gate. -/
def execVrmax (h : Head) (f : VecF) (s : State) : Host.Outcome State Fault Refusal :=
  runGated (.vrmax h f) (sylVrmax f) s

/-- VRMIN (R299). -/
def sylVrmin (f : VecF) (s : State) : Act :=
  reduceOut (reduceTree (extremeLane f.ty false) (emptyExtreme f.ty false)) f s

/-- VRMIN with its gate. -/
def execVrmin (h : Head) (f : VecF) (s : State) : Host.Outcome State Fault Refusal :=
  runGated (.vrmin h f) (sylVrmin f) s

/-- VRAND (R299). -/
def sylVrand (f : VecF) (s : State) : Act :=
  reduceOut (reduceTree (fun a b => (a &&& b, 0)) (2 ^ tyBits f.ty - 1)) f s

/-- VRAND with its gate. -/
def execVrand (h : Head) (f : VecF) (s : State) : Host.Outcome State Fault Refusal :=
  runGated (.vrand h f) (sylVrand f) s

/-- VROR (R299). -/
def sylVror (f : VecF) (s : State) : Act :=
  reduceOut (reduceTree (fun a b => (a ||| b, 0)) 0) f s

/-- VROR with its gate. -/
def execVror (h : Head) (f : VecF) (s : State) : Host.Outcome State Fault Refusal :=
  runGated (.vror h f) (sylVror f) s

/-- VCMP (R300). -/
def sylVcmp (f : VecF) (s : State) : Act :=
  let t := curTask s
  let r := packPred (actMask t f)
    (List.zipWith (cmpLane f.ty (f.md.toNat % 8)) (lanesOf f.ty (vectorIn t f.s1)) (lanesOf f.ty (vectorIn t f.s2)))
  predOut f r.1 r.2 s

/-- VCMP with its gate. -/
def execVcmp (h : Head) (f : VecF) (s : State) : Host.Outcome State Fault Refusal :=
  runGated (.vcmp h f) (sylVcmp f) s

/-- VQAND (R300). -/
def sylVqand (f : VecF) (s : State) : Act :=
  predOp (fun a b => a &&& b) f s

/-- VQAND with its gate. -/
def execVqand (h : Head) (f : VecF) (s : State) : Host.Outcome State Fault Refusal :=
  runGated (.vqand h f) (sylVqand f) s

/-- VQOR (R300). -/
def sylVqor (f : VecF) (s : State) : Act :=
  predOp (fun a b => a ||| b) f s

/-- VQOR with its gate. -/
def execVqor (h : Head) (f : VecF) (s : State) : Host.Outcome State Fault Refusal :=
  runGated (.vqor h f) (sylVqor f) s

/-- VQNOT (R300). -/
def sylVqnot (f : VecF) (s : State) : Act :=
  predOp (fun a _ => ~~~a) f s

/-- VQNOT with its gate. -/
def execVqnot (h : Head) (f : VecF) (s : State) : Host.Outcome State Fault Refusal :=
  runGated (.vqnot h f) (sylVqnot f) s

/-- VSEL (R301). -/
def sylVsel (f : VecF) (s : State) : Act :=
  let t := curTask s
  let a := (lanesOf f.ty (vectorIn t f.s1)).map (fun x => (x, (0 : BitVec 3)))
  let m := mergeLanes (predReg t (f.s3.toNat % 16)).toNat (lanesOf f.ty (vectorIn t f.s2)) a
  vecOut f 5 (toVReg (pack (tyBits f.ty) m.1)) 0 s

/-- VSEL with its gate. -/
def execVsel (h : Head) (f : VecF) (s : State) : Host.Outcome State Fault Refusal :=
  runGated (.vsel h f) (sylVsel f) s

/-- VPERM, L = 9 (R301). -/
def sylVperm (f : VecF) (s : State) : Act :=
  let t := curTask s
  let a := lanesOf f.ty (vectorIn t f.s1)
  let idx := unpack 16 1024 (vectorIn t f.s2).toNat ++ unpack 16 1024 (vectorIn t f.s3).toNat
  laneOut f 9 (2 ^ 2048 - 1) ((idx.take (lanes f.ty)).map (permLane a)) s

/-- VPERM with its gate. -/
def execVperm (h : Head) (f : VecF) (s : State) : Host.Outcome State Fault Refusal :=
  runGated (.vperm h f) (sylVperm f) s

/-- VBCAST from a scalar (R301). -/
def sylVbcast (f : VecF) (s : State) : Act :=
  let t := curTask s
  laneOut f 5 (actMask t f)
    (List.replicate (lanes f.ty) ((scalarInV t f.s2).toNat % 2 ^ tyBits f.ty, 0)) s

/-- VBCAST with its gate. -/
def execVbcast (h : Head) (f : VecF) (s : State) : Host.Outcome State Fault Refusal :=
  runGated (.vbcast h f) (sylVbcast f) s

/-- VBCAST from a lane (R301). -/
def sylVbcastLn (f : VecF) (s : State) : Act :=
  let t := curTask s
  let n := lanes f.ty
  let x := (lanesOf f.ty (vectorIn t f.s1)).getD ((scalarInV t f.s2).toNat % n) 0
  laneOut f 5 (actMask t f) (List.replicate n (x, 0)) s

/-- VBCAST_LN with its gate. -/
def execVbcastLn (h : Head) (f : VecF) (s : State) : Host.Outcome State Fault Refusal :=
  runGated (.vbcastLn h f) (sylVbcastLn f) s

/-- VMOV (R301). -/
def sylVmov (f : VecF) (s : State) : Act :=
  vec1 5 (fun a => (a, 0)) f s

/-- VMOV with its gate. -/
def execVmov (h : Head) (f : VecF) (s : State) : Host.Outcome State Fault Refusal :=
  runGated (.vmov h f) (sylVmov f) s

/-- VINS (R301). -/
def sylVins (f : VecF) (s : State) : Act :=
  let t := curTask s
  let k := (scalarInV t f.s3).toNat
  let a := lanesOf f.ty (vectorIn t f.s1)
  laneOut f 5 (2 ^ 2048 - 1)
    ((if k < lanes f.ty then setAt a k ((scalarInV t f.s2).toNat % 2 ^ tyBits f.ty) else a).map (fun x => (x, 0))) s

/-- VINS with its gate. -/
def execVins (h : Head) (f : VecF) (s : State) : Host.Outcome State Fault Refusal :=
  runGated (.vins h f) (sylVins f) s

/-- VEXT (R301). -/
def sylVext (f : VecF) (s : State) : Act :=
  let t := curTask s
  let n := lanes f.ty
  let c := (lanesOf f.ty (vectorIn t f.s1) ++ lanesOf f.ty (vectorIn t f.s2)).drop (min (2 * n) (scalarInV t f.s3).toNat)
  laneOut f 5 (2 ^ 2048 - 1) (((c ++ List.replicate n 0).take n).map (fun x => (x, 0))) s

/-- VEXT with its gate. -/
def execVext (h : Head) (f : VecF) (s : State) : Host.Outcome State Fault Refusal :=
  runGated (.vext h f) (sylVext f) s

/-- VZPS, L = 7 (R304). -/
def sylVzps (f : VecF) (s : State) : Act :=
  let t := curTask s
  let wide := f.md.getLsbD 3
  let n := min (if wide then 2048 else 4096) (lanes f.ty)
  let v := (vectorIn t f.s1).toNat
  let z := (vectorIn t f.s2).toNat
  laneOut f 7 (2 ^ 2048 - 1)
    ((List.range n).map (fun j =>
      let e := f.md.toNat % 8 * n + j
      convertInt f.ty false ((offsetCode v wide e : Int) - zeroPoint z wide e))) s

/-- VZPS with its gate. -/
def execVzps (h : Head) (f : VecF) (s : State) : Host.Outcome State Fault Refusal :=
  runGated (.vzps h f) (sylVzps f) s

/-- VPLX, L = 7 (R305). The lane count is that of the destination, which no source has fewer elements than. -/
def sylVplx (f : VecF) (s : State) : Act :=
  let t := curTask s
  let n := lanes f.ty
  laneOut f 7 (2 ^ 2048 - 1)
    ((List.range n).map (fun j =>
      plxLane f (vectorIn t f.s1).toNat (vectorIn t f.s2).toNat (f.md.toNat * n + j))) s

/-- VPLX with its gate. -/
def execVplx (h : Head) (f : VecF) (s : State) : Host.Outcome State Fault Refusal :=
  runGated (.vplx h f) (sylVplx f) s

/-- VPLI, L = 7 (R306). -/
def sylVpli (f : VecF) (s : State) : Act :=
  let r := pliBlocks (widthOf (f.md.toNat % 8)) (unpack 8 2048 (vectorIn (curTask s) f.s1).toNat)
  vecOut f 7 (toVReg (pack 32 r.1)) r.2 s

/-- VPLI with its gate. -/
def execVpli (h : Head) (f : VecF) (s : State) : Host.Outcome State Fault Refusal :=
  runGated (.vpli h f) (sylVpli f) s

/-- VEXP2, L = 10 (R307). -/
def sylVexp2 (f : VecF) (s : State) : Act :=
  vec1 10 (funcF exp2FV f.ty.toNat (rtzBit f)) f s

/-- VEXP2 with its gate. -/
def execVexp2 (h : Head) (f : VecF) (s : State) : Host.Outcome State Fault Refusal :=
  runGated (.vexp2 h f) (sylVexp2 f) s

/-- VRCP, L = 10 (R307). -/
def sylVrcp (f : VecF) (s : State) : Act :=
  vec1 10 (funcF rcpFV f.ty.toNat (rtzBit f)) f s

/-- VRCP with its gate. -/
def execVrcp (h : Head) (f : VecF) (s : State) : Host.Outcome State Fault Refusal :=
  runGated (.vrcp h f) (sylVrcp f) s

/-- VMRG, L = 14: 2^g segments merged (R308). -/
def sylVmrg (f : VecF) (s : State) : Act :=
  let t := curTask s
  let g := f.md.toNat % 8
  let n := 512 / 2 ^ g
  let a := groupsOf n (2 ^ g) (unpack 32 512 (vectorIn t f.s1).toNat)
  let b := groupsOf n (2 ^ g) (unpack 32 512 (vectorIn t f.s2).toNat)
  let r := List.zipWith mergeSeg a b
  vecOut f 14 (toVReg (pack 32 (r.flatMap Prod.fst))) (r.foldl (fun x y => x ||| y.2) 0) s

/-- VMRG with its gate. -/
def execVmrg (h : Head) (f : VecF) (s : State) : Host.Outcome State Fault Refusal :=
  runGated (.vmrg h f) (sylVmrg f) s

/-- The element format a type code and width subfield name (R196, R197). -/
def fmtOf (code sub : Nat) : Fmt := ⟨BitVec.ofNat 4 code, if code = 13 ∨ code = 14 then widthOf sub else 0⟩

/-- GIDX: the index part of ga, L = 1 (R294, R309). -/
def sylGidx (f : VecF) (s : State) : Act :=
  let l := unpack 32 64 (vectorIn (curTask s) f.s1).toNat
  .done (pushDue s 1 5 (.gaIndex ⟨some (fmtOf f.ty.toNat (f.md.toNat % 8)), f.s2.toNat % 32, l⟩))

/-- GIDX with its gate. -/
def execGidx (h : Head) (f : VecF) (s : State) : Host.Outcome State Fault Refusal :=
  runGated (.gidx h f) (sylGidx f) s

end Sys2Proof.Machine
end

