-- ==== Sys2Proof/Machine/Memory.lean ====
section
/-!
DEFINITION. The memory slots MLS, MGL and MTW, FENCE, BLD, XLATE, GATH, and the performance of an access at its home
(spec 13_memory_instructions.md R265 to R278, 14_vector_matrix.md R310, 02_scratchpads.md R35).
-/
namespace Sys2Proof.Machine

/-! ### What a memory syllable asks for -/

/-- The size of a scalar form (R224). -/
def memSize (f : MemF) : Nat := 2 ^ (f.data.toNat / 256)

/-- The scalar register of a scalar form. -/
def memReg (f : MemF) : Nat := f.data.toNat % 128

/-- The offset of the first register of an access, exact (R265) (DEDUCED, log 56). -/
def memBase (t : Task) (f : MemF) (imm : Int) (unit : Nat) : Int :=
  (scalarIn t f.x).toInt + (if memPi f then 0 else imm * unit)

/-- The pointer write of a post-increment form, at L = 1 (R265, R268). -/
def pointerWrite (slot : Nat) (f : MemF) (imm : Int) (unit : Nat) (s : State) : State :=
  if memPi f then
    pushScalar s 1 slot f.x.toNat (scalarIn (curTask s) f.x + BitVec.ofInt 64 (imm * unit))
  else s

/-- An access of a slot through the record and the handle that its syllable names. -/
def memAsk (slot : Nat) (kind : Kind) (t : Task) (f : MemF) (unit es : Nat) (off : Int) (rows : List (Nat × Int × Nat))
    (tile : Bool) : Ask :=
  { recd := recReg t f.b.toNat, hnd := if slot = 9 then handleReg t f.h.toNat else ⟨0, 0⟩, wired := some (slot - 7),
    kind := kind, unit := unit, es := es, off := off, rows := rows, tile := tile }

/-- A scalar access (R269). -/
def scalarAsk (slot : Nat) (kind : Kind) (t : Task) (f : MemF) (imm : Int) : Ask :=
  let n := memSize f
  let off := memBase t f imm n
  memAsk slot kind t f n n off [(0, off, n)] false

/-- The accesses of a vector form, in ascending register order (R270). -/
def vectorAsks (slot : Nat) (kind : Kind) (t : Task) (f : MemF) : List Ask :=
  (List.range (2 ^ memRc f)).map (fun (k : Nat) =>
    let off := memBase t f f.imm.toInt 64 + (2048 * k : Nat)
    memAsk slot kind t f 64 (alignUnit (recReg t f.b.toNat).fmt) off [(0, off, 2048)] false)

/-- The accesses of a tile form (R270) (DEDUCED, log 103). -/
def tileAsks (slot : Nat) (kind : Kind) (t : Task) (f : MemF) : List Ask :=
  let b := recReg t f.b.toNat
  let rb := 64 * 2 ^ (b.tshape - 1)
  (List.range (2 ^ memRc f)).map (fun (k : Nat) =>
    let off := memBase t f f.imm.toInt 64 + (b.stride2 * k : Nat)
    memAsk slot kind t f 64 (alignUnit b.fmt) off
      ((List.range (2048 / rb)).map (fun (j : Nat) => (j * rb, off + (j * b.stride1 : Nat), rb))) true)

/-- The checks of every register of an access in ascending order: their runs, or the first fault (R265). -/
def checkAsks (s : State) (slot : Nat) : List Ask → Except FaultInfo (List (Ask × List Run))
  | [] => .ok []
  | q :: qs =>
    match checkAsk s s.cur slot q with
    | .error f => .error f
    | .ok rs =>
      match lostFault s slot q rs with
      | some f => .error f
      | none =>
        match checkAsks s slot qs with
        | .error f => .error f
        | .ok l => .ok ((q, rs) :: l)

/-- The queue entry of a checked access of a memory syllable, with its ordering form (R101, R271). -/
def accessOf (s : State) (slot : Nat) (h : Head) (f : MemF) (op : AccOp) (q : Ask) (rs : List Run) : Access :=
  let x := mkAccess s s.nextId slot h.ac op rs
  { x with
    acq := f.ord.getLsbD 0
    rel := if f.ord.getLsbD 1 then some f.scope.toNat else none
    fadr := match rs with
      | r :: _ => errorAdr q r.adr
      | [] => 0
    recd := recIdent q.recd
    hnd := if slot = 9 then hndIdent q.hnd else none }

/-- The FADR of poisoned data among runs, if any (R58, R378). -/
def poisonAt (s : State) (q : Ask) (rs : List Run) : Option Word :=
  ((eventsOf rs).find? (fun g => badRange s g.adr g.len)).map (fun g => errorAdr q g.adr)

/-- Put the registers of a checked access into the queues in ascending order; `op` gives register k's operation. -/
def enqueueFrom (slot : Nat) (h : Head) (f : MemF) (op : Nat → AccOp) (group : Nat) (whole : List (Nat × Nat)) :
    Nat → List (Ask × List Run) → State → State
  | _, [], s => s
  | k, x :: l, s =>
    enqueueFrom slot h f op group whole (k + 1) l
      (enqueueAccess s { accessOf s slot h f (op k) x.1 x.2 with group := group, whole := whole })

/-- Put a checked access into the queues: its registers are one store to the watches (R190). -/
def enqueueAll (slot : Nat) (h : Head) (f : MemF) (op : Nat → AccOp) (l : List (Ask × List Run)) (s : State) : State :=
  enqueueFrom slot h f op s.nextId (l.flatMap (fun x => x.2.map (fun r => (r.adr, r.len)))) 0 l s

/-- Is some register of an MLS access held by an earlier access of its core (R103)? -/
def anyHeld (s : State) (h : Head) (f : MemF) (op : Nat → AccOp) : Nat → List (Ask × List Run) → Bool
  | _, [] => false
  | k, x :: l => mlsHeld s (accessOf s 7 h f (op k) x.1 x.2) || anyHeld s h f op (k + 1) l

/-- The results of an MLS access that meets bank conflicts: register k at L = `lat k`, still to be filled by its access, whose
number counts on from `id` (R33). -/
def lateResults (lat : Nat → Nat) (op : Nat → AccOp) (ring : Option Ring) (id : Nat) : Nat → List (Ask × List Run) → State → State
  | _, [], s => s
  | k, _ :: l, s =>
    let d : Option Dest := match op k with
      | .loadS r _ _ => some (.scalar r 0)
      | .loadV r => some (.vector (some r) 0)
      | _ => none
    lateResults lat op ring id (k + 1) l (match d with
      | some d => modTask s (fun t => { t with due := t.due ++ [{ mkDue t (lat k) 7 d ring 0 none with late := some (id + k) }] })
      | none => s)

/-- May an operation be performed line by line? An atomic is one event (R102). -/
def lineByLine (op : AccOp) : Bool :=
  match op with
  | .loadS _ _ _ => true
  | .loadV _ => true
  | .store _ => true
  | .atomic _ _ _ _ _ => false
  | .bld _ => false
  | .mark => false
  | .fence _ _ _ => false

/-- A checked access of a slot: an MLS access is performed at its issue by `now`, or stalls while it is held; one that meets
bank conflicts is performed line by line while its core issues nothing (R33) (DESIGN CHOICE, log 104). Another enters its
queues. -/
def issueAccess (slot : Nat) (h : Head) (f : MemF) (asks : List Ask) (op : Nat → AccOp) (lat : Nat → Nat) (ring : Option Ring)
    (now : List (Ask × List Run) → State → State) (s : State) : Act :=
  match checkAsks s slot asks with
  | .error x => .trap x
  | .ok l =>
    if slot = 7 then
      if anyHeld s h f op 0 l then .stall
      else if s.slow && lineByLine (op 0) then .done (lateResults lat op ring s.nextId 0 l (enqueueAll slot h f op l s))
      else .done (now l s)
    else .done (enqueueAll slot h f op l s)

/-- The value of a scalar load from its image. -/
def loadValue (n : Nat) (sx : Bool) (v : VReg) : Word :=
  let x := v.toNat % 2 ^ (8 * n)
  if sx then BitVec.ofInt 64 (signed (8 * n) x) else word x

/-! ### The forms -/

/-- LD and LDZ (R268, R269). -/
def scalarLoad (slot : Nat) (sx : Bool) (h : Head) (f : MemF) (s : State) : Act :=
  let n := memSize f
  let now := fun (l : List (Ask × List Run)) (s : State) =>
    l.foldl (fun s x =>
      pushDue s 4 slot (.scalar (memReg f) (loadValue n sx (loadRuns s x.2))) none 0 (poisonAt s x.1 x.2)) s
  (issueAccess slot h f [scalarAsk slot .load (curTask s) f f.imm.toInt] (fun _ => .loadS (memReg f) n sx) (fun _ => 4) none
      now s).bind
    (fun s => .done (pointerWrite slot f f.imm.toInt n s))

/-- The image of a scalar. -/
def scalarImage (x : Word) : VReg := x.setWidth 16384

/-- ST (R269): the data register is read at issue. -/
def scalarStore (slot : Nat) (h : Head) (f : MemF) (s : State) : Act :=
  let n := memSize f
  let x := scalarImage (scalarCode (curTask s) (memReg f))
  let now := fun (l : List (Ask × List Run)) (s : State) => l.foldl (fun s r => storeRuns s x r.2) s
  (issueAccess slot h f [scalarAsk slot .store (curTask s) f f.imm.toInt] (fun _ => .store x) (fun _ => 0) none now s).bind
    (fun s => .done (pointerWrite slot f f.imm.toInt n s))

/-- The results of an MLS vector load: register k at L = 6 + k, through the MLS ring (R268). -/
def vectorResults (f : MemF) : Nat → List (Ask × List Run) → State → State
  | _, [], s => s
  | k, x :: l, s =>
    vectorResults f (k + 1) l
      (pushDue s (6 + k) 7 (.vector (some (f.data.toNat + k)) (loadRuns s x.2)) (some .mls) 0 (poisonAt s x.1 x.2))

/-- VLD and TLD (R268, R270). -/
def vectorLoad (slot : Nat) (asks : List Ask) (h : Head) (f : MemF) (s : State) : Act :=
  (issueAccess slot h f asks (fun k => .loadV (f.data.toNat + k)) (fun k => 6 + k) (some .mls) (vectorResults f 0) s).bind
    (fun s => .done (pointerWrite slot f f.imm.toInt 64 s))

/-- The writes of a vector form's registers in ascending order, granule by granule. -/
def vectorPieces (t : Task) (f : MemF) : Nat → List (Ask × List Run) → List (Nat × List Byte)
  | _, [] => []
  | k, x :: l => (eventsOf x.2).map (fun g => (g.adr, imageBytes (vectorCode t (f.data.toNat + k)) g.off g.len)) ++ vectorPieces t f (k + 1) l

/-- The stores of an MLS vector form: one triggering write (R190). -/
def vectorStores (t : Task) (f : MemF) (l : List (Ask × List Run)) (s : State) : State := storeAll s (vectorPieces t f 0 l)

/-- VST and TST (R270). -/
def vectorStore (slot : Nat) (asks : List Ask) (h : Head) (f : MemF) (s : State) : Act :=
  let t := curTask s
  (issueAccess slot h f asks (fun k => .store (vectorCode t (f.data.toNat + k))) (fun _ => 0) none (vectorStores t f) s).bind
    (fun s => .done (pointerWrite slot f f.imm.toInt 64 s))

/-- A read-modify-write at its home (R102): the old value, and the memory it leaves. -/
def atomicAt (s : State) (op : AtomicOp) (n a : Nat) (x y : Word) : Nat × State :=
  let old := readNat s a n
  (old, storeTrig s a (leBytes n (atomicNew op n old x.toNat y.toNat)))

/-- An MLS atomic, performed at its issue, with its result at L = 6 (R268). One that meets an uncorrectable error delivers a
poisoned result and writes nothing (R378; DEDUCED, log 22). -/
def atomicNow (op : AtomicOp) (f : MemF) (x y : Word) (l : List (Ask × List Run)) (s : State) : State :=
  l.foldl (fun s q =>
    match q.2 with
    | [] => s
    | r :: _ =>
      match poisonAt s q.1 q.2 with
      | some b => pushDue s 6 7 (.scalar (memReg f) 0) none 0 (some b)
      | none =>
        let (old, s1) := atomicAt s op (memSize f) r.adr x y
        pushDue s1 6 7 (.scalar (memReg f) (word old))) s

/-- AMO and CAS (R272 to R274). -/
def atomicAccess (slot : Nat) (op : AtomicOp) (imm : Int) (h : Head) (f : MemF) (s : State) : Act :=
  let t := curTask s
  let x := scalarCode t (memReg f)
  let y := scalarCode t (memReg f + 1)
  issueAccess slot h f [scalarAsk slot .atomic t f imm] (fun _ => .atomic op (memReg f) (memSize f) x y) (fun _ => 6) none
    (atomicNow op f x y) s

/-- A marker or fence in the queues (R98, R100); with no earlier access of its core in flight it holds nothing. -/
def placeMark (slot : Nat) (op : AccOp) (s : State) : State :=
  let s1 := enqueueAccess s (mkAccess s 0 slot 0 op [])
  { s1 with acc := sweepMarks s1.acc }


/-- LD: a sign-extending scalar load of MLS (R267 to R269). -/
def sylLd (h : Head) (f : MemF) (s : State) : Act :=
  scalarLoad 7 true h f s

/-- LD with its gate. -/
def execLd (h : Head) (f : MemF) (s : State) : Host.Outcome State Fault Refusal :=
  runGated (.ld h f) (sylLd h f) s

/-- LDZ: a zero-extending scalar load of MLS (R267 to R269). -/
def sylLdz (h : Head) (f : MemF) (s : State) : Act :=
  scalarLoad 7 false h f s

/-- LDZ with its gate. -/
def execLdz (h : Head) (f : MemF) (s : State) : Host.Outcome State Fault Refusal :=
  runGated (.ldz h f) (sylLdz h f) s

/-- ST: a scalar store of MLS (R267, R269). -/
def sylSt (h : Head) (f : MemF) (s : State) : Act :=
  scalarStore 7 h f s

/-- ST with its gate. -/
def execSt (h : Head) (f : MemF) (s : State) : Host.Outcome State Fault Refusal :=
  runGated (.st h f) (sylSt h f) s

/-- VLD: a load of 1 to 8 vector registers by MLS (R267, R268, R270). -/
def sylVld (h : Head) (f : MemF) (s : State) : Act :=
  vectorLoad 7 (vectorAsks 7 .load (curTask s) f) h f s

/-- VLD with its gate. -/
def execVld (h : Head) (f : MemF) (s : State) : Host.Outcome State Fault Refusal :=
  runGated (.vld h f) (sylVld h f) s

/-- VST: a store of 1 to 8 vector registers by MLS (R267, R270). -/
def sylVst (h : Head) (f : MemF) (s : State) : Act :=
  vectorStore 7 (vectorAsks 7 .store (curTask s) f) h f s

/-- VST with its gate. -/
def execVst (h : Head) (f : MemF) (s : State) : Host.Outcome State Fault Refusal :=
  runGated (.vst h f) (sylVst h f) s

/-- TLD: a tile-shaped load by MLS (R267, R268, R270). -/
def sylTld (h : Head) (f : MemF) (s : State) : Act :=
  vectorLoad 7 (tileAsks 7 .load (curTask s) f) h f s

/-- TLD with its gate. -/
def execTld (h : Head) (f : MemF) (s : State) : Host.Outcome State Fault Refusal :=
  runGated (.tld h f) (sylTld h f) s

/-- TST: a tile-shaped store by MLS (R267, R270). -/
def sylTst (h : Head) (f : MemF) (s : State) : Act :=
  vectorStore 7 (tileAsks 7 .store (curTask s) f) h f s

/-- TST with its gate. -/
def execTst (h : Head) (f : MemF) (s : State) : Host.Outcome State Fault Refusal :=
  runGated (.tst h f) (sylTst h f) s

/-- AMO: a read-modify-write by MLS (R272, R274). -/
def sylAmo (h : Head) (f : MemF) (s : State) : Act :=
  atomicAccess 7 (.amo (BitVec.ofNat 4 (f.imm.toNat / 2 ^ 13))) (signed 13 f.imm.toNat) h f s

/-- AMO with its gate. -/
def execAmo (h : Head) (f : MemF) (s : State) : Host.Outcome State Fault Refusal :=
  runGated (.amo h f) (sylAmo h f) s

/-- CAS: a compare-and-swap by MLS (R273, R274). -/
def sylCas (h : Head) (f : MemF) (s : State) : Act :=
  atomicAccess 7 .cas f.imm.toInt h f s

/-- CAS with its gate. -/
def execCas (h : Head) (f : MemF) (s : State) : Host.Outcome State Fault Refusal :=
  runGated (.cas h f) (sylCas h f) s

/-- MARK: a marker in both queues of the slot (R98, R275). -/
def sylMark (_f : MemF) (s : State) : Act := .done (placeMark 7 .mark s)

/-- MARK with its gate. -/
def execMark (h : Head) (f : MemF) (s : State) : Host.Outcome State Fault Refusal :=
  runGated (.mark h f) (sylMark f) s

/-- GLD: a sign-extending scalar load of MGL (R267 to R269). -/
def sylGld (h : Head) (f : MemF) (s : State) : Act :=
  scalarLoad 8 true h f s

/-- GLD with its gate. -/
def execGld (h : Head) (f : MemF) (s : State) : Host.Outcome State Fault Refusal :=
  runGated (.gld h f) (sylGld h f) s

/-- GLDZ: a zero-extending scalar load of MGL (R267 to R269). -/
def sylGldz (h : Head) (f : MemF) (s : State) : Act :=
  scalarLoad 8 false h f s

/-- GLDZ with its gate. -/
def execGldz (h : Head) (f : MemF) (s : State) : Host.Outcome State Fault Refusal :=
  runGated (.gldz h f) (sylGldz h f) s

/-- GST: a scalar store of MGL (R267, R269). -/
def sylGst (h : Head) (f : MemF) (s : State) : Act :=
  scalarStore 8 h f s

/-- GST with its gate. -/
def execGst (h : Head) (f : MemF) (s : State) : Host.Outcome State Fault Refusal :=
  runGated (.gst h f) (sylGst h f) s

/-- GVLD: a load of 1 to 8 vector registers by MGL (R267, R268, R270). -/
def sylGvld (h : Head) (f : MemF) (s : State) : Act :=
  vectorLoad 8 (vectorAsks 8 .load (curTask s) f) h f s

/-- GVLD with its gate. -/
def execGvld (h : Head) (f : MemF) (s : State) : Host.Outcome State Fault Refusal :=
  runGated (.gvld h f) (sylGvld h f) s

/-- GVST: a store of 1 to 8 vector registers by MGL (R267, R270). -/
def sylGvst (h : Head) (f : MemF) (s : State) : Act :=
  vectorStore 8 (vectorAsks 8 .store (curTask s) f) h f s

/-- GVST with its gate. -/
def execGvst (h : Head) (f : MemF) (s : State) : Host.Outcome State Fault Refusal :=
  runGated (.gvst h f) (sylGvst h f) s

/-- GTLD: a tile-shaped load by MGL (R267, R268, R270). -/
def sylGtld (h : Head) (f : MemF) (s : State) : Act :=
  vectorLoad 8 (tileAsks 8 .load (curTask s) f) h f s

/-- GTLD with its gate. -/
def execGtld (h : Head) (f : MemF) (s : State) : Host.Outcome State Fault Refusal :=
  runGated (.gtld h f) (sylGtld h f) s

/-- GTST: a tile-shaped store by MGL (R267, R270). -/
def sylGtst (h : Head) (f : MemF) (s : State) : Act :=
  vectorStore 8 (tileAsks 8 .store (curTask s) f) h f s

/-- GTST with its gate. -/
def execGtst (h : Head) (f : MemF) (s : State) : Host.Outcome State Fault Refusal :=
  runGated (.gtst h f) (sylGtst h f) s

/-- GAMO: a read-modify-write by MGL (R272, R274). -/
def sylGamo (h : Head) (f : MemF) (s : State) : Act :=
  atomicAccess 8 (.amo (BitVec.ofNat 4 (f.imm.toNat / 2 ^ 13))) (signed 13 f.imm.toNat) h f s

/-- GAMO with its gate. -/
def execGamo (h : Head) (f : MemF) (s : State) : Host.Outcome State Fault Refusal :=
  runGated (.gamo h f) (sylGamo h f) s

/-- GCAS: a compare-and-swap by MGL (R273, R274). -/
def sylGcas (h : Head) (f : MemF) (s : State) : Act :=
  atomicAccess 8 .cas f.imm.toInt h f s

/-- GCAS with its gate. -/
def execGcas (h : Head) (f : MemF) (s : State) : Host.Outcome State Fault Refusal :=
  runGated (.gcas h f) (sylGcas h f) s

/-- GMARK: a marker in both queues of the slot (R98, R275). -/
def sylGmark (_f : MemF) (s : State) : Act := .done (placeMark 8 .mark s)

/-- GMARK with its gate. -/
def execGmark (h : Head) (f : MemF) (s : State) : Host.Outcome State Fault Refusal :=
  runGated (.gmark h f) (sylGmark f) s

/-- WLD: a sign-extending scalar load of MTW (R267 to R269). -/
def sylWld (h : Head) (f : MemF) (s : State) : Act :=
  scalarLoad 9 true h f s

/-- WLD with its gate. -/
def execWld (h : Head) (f : MemF) (s : State) : Host.Outcome State Fault Refusal :=
  runGated (.wld h f) (sylWld h f) s

/-- WLDZ: a zero-extending scalar load of MTW (R267 to R269). -/
def sylWldz (h : Head) (f : MemF) (s : State) : Act :=
  scalarLoad 9 false h f s

/-- WLDZ with its gate. -/
def execWldz (h : Head) (f : MemF) (s : State) : Host.Outcome State Fault Refusal :=
  runGated (.wldz h f) (sylWldz h f) s

/-- WST: a scalar store of MTW (R267, R269). -/
def sylWst (h : Head) (f : MemF) (s : State) : Act :=
  scalarStore 9 h f s

/-- WST with its gate. -/
def execWst (h : Head) (f : MemF) (s : State) : Host.Outcome State Fault Refusal :=
  runGated (.wst h f) (sylWst h f) s

/-- WVLD: a load of 1 to 8 vector registers by MTW (R267, R268, R270). -/
def sylWvld (h : Head) (f : MemF) (s : State) : Act :=
  vectorLoad 9 (vectorAsks 9 .load (curTask s) f) h f s

/-- WVLD with its gate. -/
def execWvld (h : Head) (f : MemF) (s : State) : Host.Outcome State Fault Refusal :=
  runGated (.wvld h f) (sylWvld h f) s

/-- WVST: a store of 1 to 8 vector registers by MTW (R267, R270). -/
def sylWvst (h : Head) (f : MemF) (s : State) : Act :=
  vectorStore 9 (vectorAsks 9 .store (curTask s) f) h f s

/-- WVST with its gate. -/
def execWvst (h : Head) (f : MemF) (s : State) : Host.Outcome State Fault Refusal :=
  runGated (.wvst h f) (sylWvst h f) s

/-- WTLD: a tile-shaped load by MTW (R267, R268, R270). -/
def sylWtld (h : Head) (f : MemF) (s : State) : Act :=
  vectorLoad 9 (tileAsks 9 .load (curTask s) f) h f s

/-- WTLD with its gate. -/
def execWtld (h : Head) (f : MemF) (s : State) : Host.Outcome State Fault Refusal :=
  runGated (.wtld h f) (sylWtld h f) s

/-- WTST: a tile-shaped store by MTW (R267, R270). -/
def sylWtst (h : Head) (f : MemF) (s : State) : Act :=
  vectorStore 9 (tileAsks 9 .store (curTask s) f) h f s

/-- WTST with its gate. -/
def execWtst (h : Head) (f : MemF) (s : State) : Host.Outcome State Fault Refusal :=
  runGated (.wtst h f) (sylWtst h f) s

/-- WAMO: a read-modify-write by MTW (R272, R274). -/
def sylWamo (h : Head) (f : MemF) (s : State) : Act :=
  atomicAccess 9 (.amo (BitVec.ofNat 4 (f.imm.toNat / 2 ^ 13))) (signed 13 f.imm.toNat) h f s

/-- WAMO with its gate. -/
def execWamo (h : Head) (f : MemF) (s : State) : Host.Outcome State Fault Refusal :=
  runGated (.wamo h f) (sylWamo h f) s

/-- WCAS: a compare-and-swap by MTW (R273, R274). -/
def sylWcas (h : Head) (f : MemF) (s : State) : Act :=
  atomicAccess 9 .cas f.imm.toInt h f s

/-- WCAS with its gate. -/
def execWcas (h : Head) (f : MemF) (s : State) : Host.Outcome State Fault Refusal :=
  runGated (.wcas h f) (sylWcas h f) s

/-- WMARK: a marker in both queues of the slot (R98, R275). -/
def sylWmark (_f : MemF) (s : State) : Act := .done (placeMark 9 .mark s)

/-- WMARK with its gate. -/
def execWmark (h : Head) (f : MemF) (s : State) : Host.Outcome State Fault Refusal :=
  runGated (.wmark h f) (sylWmark f) s

/-- FENCE: edges between earlier and later accesses of every memory slot at a scope (R100, R276). -/
def sylFence (f : SysF) (s : State) : Act :=
  let k := f.imm.toNat % 4
  .done (placeMark 11 (.fence (decide (k ≠ 2)) (decide (k ≠ 1)) (f.imm.toNat / 4 % 8)) s)

/-- FENCE with its gate. -/
def execFence (h : Head) (f : SysF) (s : State) : Host.Outcome State Fault Refusal :=
  runGated (.fence h f) (sylFence f) s

/-- BLD: an object-table entry into a record register (R84, R277). The index is exact in two's complement (DEDUCED, log 24). -/
def sylBld (f : MemF) (s : State) : Act :=
  let t := curTask s
  let i := (scalarIn t f.x).toInt + f.imm.toInt
  let r := (mapGet 0 (getTower s (agentTower s.cur)).otroot t.ctx.toNat).toNat
  let bad := mkFault .rights (BitVec.ofInt 64 i) 9
  if i < 0 ∨ 65536 ≤ i ∨ bit r 63 = false then .trap bad
  else
    let a := tmFlat (bits r 62 60) (bits r 35 21 * 2 ^ 21) + i.toNat * 32
    if lostAt s a then .trap (mkFault .uncorrected (BitVec.ofInt 64 i) 9)
    else if bit (readNat s a 4) 19 = false ∧ badRange s a 32 = false then .trap bad
    else
      let x := mkAccess s 0 9 0 (.bld f.b.toNat) [⟨0, a, 32⟩]
      .done (enqueueAccess s { x with grans := [⟨a, 32, 0⟩], fadr := BitVec.ofInt 64 i })

/-- BLD with its gate. -/
def execBld (h : Head) (f : MemF) (s : State) : Host.Outcome State Fault Refusal :=
  runGated (.bld h f) (sylBld f) s

/-- XLATE: the handle of a VA (R86, R278). A miss is walked before the bundle issues; in assisted mode it traps. An entry of the
tables that cannot be read faults UNCORRECTED (R58, R65; DEDUCED, log 53). -/
def sylXlate (f : MemF) (s : State) : Act :=
  let t := curTask s
  let va := scalarIn t f.x
  if canonical va = false then .trap (mkFault .noncanonical va 9)
  else
    match translate s s.cur t.ctx va with
    | .hit e => .done (pushDue s 1 9 (.handle f.h.toNat (makeHandle (agentTower s.cur) e)))
    | .failed => .trap (mkFault .translation va 9)
    | .lost a => .trap (mkFault .uncorrected (word (a % 2 ^ 36)) 9)
    | .miss =>
      if (getTower s (agentTower s.cur)).fmr.getLsbD 0 = true ∧ walkAsked s s.cur t.ctx va = false then .trap (mkFault .translationAssist va 9) else .wait (.walk va)

/-- XLATE with its gate. -/
def execXlate (h : Head) (f : MemF) (s : State) : Host.Outcome State Fault Refusal :=
  runGated (.xlate h f) (sylXlate f) s

/-! ### The gather (R310) -/

/-- The bytes of a gathered row. -/
def gatherRow (fm : Fmt) : Nat := if fm.code = 13 then 4 * fm.k else if fm.code = 11 then 16 else 32

/-- Has a format side bytes? -/
def gatherSide (fm : Fmt) : Bool := decide (fm.code = 11) || decide (fm.code = 12) || decide (fm.code = 13)

/-- The MLS reads of a gather, row and side byte by row. -/
def gatherAsks (b : Rec) (fm : Fmt) (offs : List Nat) : List Ask :=
  let one := fun (off n img : Nat) =>
    ({ recd := b, hnd := ⟨0, 0⟩, wired := some 0, kind := .load, unit := n, es := n, off := off, rows := [(img, off, n)],
       tile := false } : Ask)
  (List.range 32).flatMap (fun r =>
    one (offs.getD r 0) (gatherRow fm) (32 * r) ::
      (if gatherSide fm then [one (offs.getD (32 + r) 0) 1 (1024 + r)] else []))

/-- The operands of a gathered row and its exponent (R200, R204, R206). -/
def gatherOperands (fm : Fmt) (v : Nat) (r : Nat) : List Int × Int :=
  let row := v >>> (256 * r) % 2 ^ 256
  let side := byteOf v (1024 + r)
  if fm.code = 11 then
    ((List.range 32).map (fun e => (offsetCode row false e : Int) - (side % 16 : Nat)), 0)
  else if fm.code = 12 then
    ((List.range 32).map (fun e => (offsetCode row true e : Int) - (side : Nat)), 0)
  else if fm.code = 13 then
    ((List.range 32).map (blockMant row fm.k fm.k), (side : Int) - 127 - ((fm.k : Int) - 1))
  else ((List.range 32).map (fun e => signed 8 (byteOf row e)), 0)

/-- The data part that the image of a gather gives. -/
def gatherData (fm : Fmt) (v : VReg) (bad : Option Word) : GaData :=
  let rows := (List.range 32).map (gatherOperands fm v.toNat)
  { fmt := some fm, a := rows.flatMap Prod.fst, ea := rows.map Prod.snd, poisoned := bad }

/-- The two results of a gather, at L = 8. -/
def gatherResults (f : VecF) (fm : Fmt) (v : VReg) (bad : Option Word) (late : Option Nat) (s : State) : State :=
  let dst : Dest := .vector (if f.nwb = 1 then none else some f.dst.toNat) v
  modTask s (fun t =>
    { t with
      due := t.due ++ [{ mkDue t 8 5 (.gaData (gatherData fm v bad)) none 0 none with late := late },
        { mkDue t 8 5 dst (some .gat) 0 bad with late := late }] })

/-- GATH (R310). The record is read at issue; ga at placement is zero: format i8, record 0, offsets 0 (R143). -/
def sylGath (f : VecF) (s : State) : Act :=
  let t := curTask s
  let fm := t.gaI.fmt.getD ⟨0, 0⟩
  if recPending s s.cur t.num t.gaI.recd then .stall
  else
    match poisonOf t (.record t.gaI.recd) with
    | some a => .trap (mkFault .uncorrected a 5)
    | none =>
      match checkAsks s 5 (gatherAsks (recReg t t.gaI.recd) fm t.gaI.offs) with
      | .error x => .trap x
      | .ok l =>
        let rs := l.flatMap Prod.snd
        let x := mkAccess s s.nextId 7 0 (.loadV 0) rs
        if mlsHeld s x then .stall
        else if s.slow then
          .done (gatherResults f fm 0 none (some s.nextId)
            (enqueueAccess s { x with recd := recIdent (recReg t t.gaI.recd), fadr := word ((rs.headD ⟨0, 0, 0⟩).adr % 2 ^ 20) }))
        else .done (gatherResults f fm (loadRuns s rs) (l.findSome? (fun x => poisonAt s x.1 x.2)) none s)

/-- GATH with its gate. -/
def execGath (h : Head) (f : VecF) (s : State) : Host.Outcome State Fault Refusal :=
  runGated (.gath h f) (sylGath f) s

/-! ### An access performed at its home (R35, R55, R93) -/

/-- The key under which corrected errors of a home are counted (R20, R378): its home unit, or CXL or host memory. -/
def errorHome (a : Nat) : Nat :=
  match homeUnit a with
  | some u => u
  | none => if isCxl a then 2 ^ 22 else 2 ^ 22 + 1

/-- What ECC finds at an address: a corrected error is counted for its home, an uncorrectable one marks its 8 bytes (R378). -/
def applyError (s : State) (a : Nat) (err : DataError) : State :=
  match err with
  | .none => s
  | .corrected =>
    let old := mapGet (a, 0) s.corr (errorHome a)
    { s with corr := mapPut s.corr (errorHome a) (old.1, old.2 + 1) }
  | .uncorrectable => { s with bad := insertNat (a / 8) s.bad }

/-- May a granule of an access be performed: no earlier access holds it, no page waits for zeroing, no spire is held? -/
def granFree (s : State) (x : Access) (g : Gran) : Bool :=
  !heldBy x g.adr (issuedBefore s x.who x.id) && !(opStores x.op && pageHeld s g.adr g.len) && !pathHeld s x.who g.adr

/-- Does a granule touch the range of a watch entry? -/
def granInside (s : State) (h : Nat × Nat) (g : Gran) : Bool :=
  let t := BitVec.ofNat 3 h.1
  let b := watchBase s t h.2
  decide (g.adr < b + watchLen s t h.2) && decide (b < g.adr + g.len)

/-- The other accesses in flight that the same store makes. -/
def mates (s : State) (x : Access) : List Access := s.acc.filter (fun y => decide (y.group = x.group) && decide (y.id ≠ x.id))

/-- Send the triggers of a store for the watch entries inside whose range no event of it remains (R190), one for each entry, whichever
of its registers changed a byte there. -/
def sendDone (x : Access) (s : State) : Access × State :=
  let ms := mates s x
  let ended := fun (h : Nat × Nat) => !x.grans.any (granInside s h) && !ms.any (fun y => y.grans.any (granInside s h))
  let out := (ms.foldl (fun l y => addHits l y.hits) x.hits).filter ended
  let s1 := if ms.isEmpty then s else
    { s with acc := s.acc.map (fun y =>
      if y.group = x.group ∧ y.id ≠ x.id then { y with hits := y.hits.filter (fun h => !out.contains h) } else y) }
  ({ x with hits := x.hits.filter (fun h => !out.contains h) }, sendTrigs s1 x.whole out)

/-- One granule event at its home. A store in flight that meets an unreachable channel writes nothing, and its task faults at its next
bundle (R65; DEDUCED, log 124). -/
def performGran (err : DataError) (p : Access × State) (g : Gran) : Access × State :=
  let x := { p.1 with grans := p.1.grans.filter (fun y => y ≠ g) }
  let s := applyError p.2 g.adr err
  let fadr := x.fadr + word g.adr - word ((x.all.headD (0, 0)).1)
  let poison := match x.bad with
    | some b => if b.1 < g.off then some b else some (g.off, fadr)
    | none => some (g.off, fadr)
  match x.op with
  | .store d =>
    if lostAt s g.adr then
      let f := fun (t : Task) => { t with lostStore := some (t.lostStore.getD (fadr, x.slot)) }
      (x, if isSup x.who then modTaskOf s x.who f else modTaskNum s x.num f)
    else
      let (s1, hits) := storeNote s g.adr (imageBytes d g.off g.len)
      sendDone { x with hits := addHits x.hits hits } s1
  | .atomic op _ n u v =>
    if badRange s g.adr g.len then ({ x with bad := poison }, s)
    else
      let (old, s1) := atomicAt s op n g.adr u v
      ({ x with buf := BitVec.ofNat 16384 old }, s1)
  | .loadS _ _ _ => if badRange s g.adr g.len then ({ x with bad := poison }, s) else ({ x with buf := loadGran s x.buf g }, s)
  | .loadV _ => if badRange s g.adr g.len then ({ x with bad := poison }, s) else ({ x with buf := loadGran s x.buf g }, s)
  | .bld _ =>
    if badRange s g.adr g.len then ({ x with bad := some (0, x.fadr) }, s) else ({ x with buf := loadGran s x.buf g }, s)
  | .mark => (x, s)
  | .fence _ _ _ => (x, s)

/-- Where a performed access delivers its data, if it loads. An entry revoked while its BLD was in flight is delivered as
revoked (R84). -/
def accessDest (x : Access) : Option Dest :=
  match x.op with
  | .loadS d n sx => some (.scalar d (loadValue n sx x.buf))
  | .loadV r => some (.vector (some r) x.buf)
  | .atomic _ d n _ _ => some (.scalar d (loadValue n false x.buf))
  | .bld b =>
    let v := x.buf.setWidth 256
    some (.record b ⟨v, true, !v.getLsbD 19⟩)
  | .store _ => none
  | .mark => none
  | .fence _ _ _ => none

/-- Does the core of an access still run the task that issued it? -/
def stillThere (s : State) (who : Agent) (num : BitVec 32) : Bool :=
  let c := getCore s who
  decide (c.task.num = num) && (c.live || isSup who)

/-- Deliver a result that lands between bundles: written before the next bundle reads its operands. -/
def landDue (s : State) (who : Agent) (born slot : Nat) (d : Dest) (bad : Option Word) : State :=
  modTaskOf s who (fun t =>
    { t with due := t.due ++ [{ due := t.issued, born := born, slot := slot, dst := d, ring := none, flags := 0, poisoned := bad }] })

/-- A result that waited for an MLS access, filled with what it loaded. -/
def fillDue (x : Access) (r : Due) : Due :=
  let bad := x.bad.map Prod.snd
  if r.late = some x.id then
    match r.dst with
    | .scalar _ _ => { r with dst := (accessDest x).getD r.dst, poisoned := bad, late := none }
    | .vector d _ => { r with dst := .vector d x.buf, poisoned := bad, late := none }
    | .gaData g => { r with dst := .gaData (gatherData (g.fmt.getD ⟨0, 0⟩) x.buf bad), late := none }
    | _ => { r with late := none }
  else r

/-- The hits of a performed register of a store pass to another register of it that is still in flight. -/
def passHits (x : Access) (l : List Access) : List Access :=
  match l.find? (fun y => y.group = x.group) with
  | none => l
  | some m => l.map (fun y => if y.id = m.id then { y with hits := addHits y.hits x.hits } else y)

/-- Put back an access after some of its events; with none left it is performed: it leaves the queues and delivers its data. -/
def finishAccess (x : Access) (s : State) : State :=
  if x.grans.isEmpty then
    let rest := s.acc.filter (fun y => y.id ≠ x.id)
    let s1 := sweepFreeing { s with acc := sweepMarks (if x.hits.isEmpty then rest else passHits x rest) }
    if x.slot = 7 then modTaskNum s1 x.num (fun t => endDrain { t with due := t.due.map (fillDue x) })
    else
      match accessDest x with
      | none => s1
      | some d => if stillThere s1 x.who x.num then landDue s1 x.who x.born x.slot d (x.bad.map Prod.snd) else s1
  else { s with acc := s.acc.map (fun y => if y.id = x.id then x else y) }

/-- The events of an access, and of the other registers of its syllable, that some of its parts belong to: those in the same aligned
8-byte granules (R92). -/
def eventParts (s : State) (x : Access) (gs : List Gran) : List (Nat × List Gran) :=
  (x.id, gs) :: (mates s x).filterMap (fun y =>
    match y.grans.filter (fun h => gs.any (fun g => decide (g.adr / 8 = h.adr / 8))) with
    | [] => none
    | hs => some (y.id, hs))

/-- Perform some parts of the access of a number. -/
def performParts (err : DataError) (s : State) (p : Nat × List Gran) : State :=
  match s.acc.find? (fun x => x.id = p.1) with
  | none => s
  | some x =>
    let r := p.2.foldl (performGran err) (x, s)
    finishAccess r.1 r.2

/-- May the parts of an access be performed? -/
def partsFree (s : State) (p : Nat × List Gran) : Bool :=
  (s.acc.find? (fun x => x.id = p.1)).all (fun x => p.2.all (granFree s x))

/-- ACCESS_PERFORMED_AT_HOME (R35, R55, R92, R93): the event of one aligned 8-byte granule, or all the events that remain, once
nothing holds them. -/
def execAccessPerformedAtHome (access : Nat) (granule : Option Nat) (err : DataError) (s : State) :
    Host.Outcome State Fault Refusal :=
  match s.acc.find? (fun x => x.id = access && isAccess x) with
  | none => .next s
  | some x =>
    let gs := match granule with
      | some a => x.grans.filter (fun g => g.adr / 8 = a / 8)
      | none => x.grans
    let ps := eventParts s x gs
    if ps.all (partsFree s) ∧ (gs ≠ [] ∨ x.grans = []) then .next (ps.foldl (performParts err) s) else .next s


end Sys2Proof.Machine
end

