-- ==== Sys2Proof/Machine/Agu.lean ====
section
/-!
DEFINITION. The AGU slot: bases and the set-up of the affine generator (spec 13_memory_instructions.md R289 to R291). The
generator's steps stand with the sequence memory, whose images they look up.
-/
namespace Sys2Proof.Machine

/-- Change the generator of the running task; the next bundle sees it (R290). -/
def modAgu (s : State) (g : Agu → Agu) : State := modTask s (fun t => { t with agu := g t.agu })

/-- A base register's new value, at L = 1. -/
def baseOut (f : AGen) (x : Word) (s : State) : Act := .done (pushDue s 1 3 (.base f.ab.toNat x))

/-- AMOV (R290). -/
def sylAmov (f : AGen) (s : State) : Act :=
  baseOut f (scalarIn (curTask s) f.a) s

/-- AMOV with its gate. -/
def execAmov (h : Head) (f : AGen) (s : State) : Host.Outcome State Fault Refusal :=
  runGated (.amov h f) (sylAmov f) s

/-- AADD (R290). -/
def sylAadd (f : AGen) (s : State) : Act :=
  baseOut f (baseReg (curTask s) f.ab.toNat + scalarIn (curTask s) f.a) s

/-- AADD with its gate. -/
def execAadd (h : Head) (f : AGen) (s : State) : Host.Outcome State Fault Refusal :=
  runGated (.aadd h f) (sylAadd f) s

/-- AADDI (R290). -/
def sylAaddi (f : AGen) (s : State) : Act :=
  baseOut f (baseReg (curTask s) f.ab.toNat + f.imm.signExtend 64) s

/-- AADDI with its gate. -/
def execAaddi (h : Head) (f : AGen) (s : State) : Host.Outcome State Fault Refusal :=
  runGated (.aaddi h f) (sylAaddi f) s

/-- ACFG: stride and count of a dimension, which becomes direct again (R290). -/
def sylAcfg (f : AGen) (s : State) : Act :=
  let x := scalarIn (curTask s) f.a
  let d := f.dim.toNat
  .done (modAgu s (fun g =>
    { g with
      stride := setAt g.stride d x, count := setAt g.count d (f.imm.setWidth 16)
      ind := g.ind && decide (g.indd ≠ f.dim) }))

/-- ACFG with its gate. -/
def execAcfg (h : Head) (f : AGen) (s : State) : Host.Outcome State Fault Refusal :=
  runGated (.acfg h f) (sylAcfg f) s

/-- AIND: the indirect dimension and its image (R290). -/
def sylAind (f : AGen) (s : State) : Act :=
  let x := scalarIn (curTask s) f.a
  .done (modAgu s (fun g =>
    { g with ind := true, indd := f.dim, iflag := f.ab, ilen := x, itab := f.imm.setWidth 20 }))

/-- AIND with its gate. -/
def execAind (h : Head) (f : AGen) (s : State) : Host.Outcome State Fault Refusal :=
  runGated (.aind h f) (sylAind f) s

/-- ARUN: starts the generator, whose step 0 falls in this bundle; K = 63 needs a direct run (R290, R291). -/
def sylArun (f : AGen) (s : State) : Act :=
  let t := curTask s
  if t.agu.ind ∧ f.a.toNat = 63 then .trap (bundleFault s .illegalOperand 3)
  else
    .done (modAgu s (fun g =>
      { g with
        gb := f.ab, gk := f.a.setWidth 6, gp := f.imm.toNat % 64 + 1, idx := [0, 0, 0, 0], run := true, next := t.issued }))

/-- ARUN with its gate. -/
def execArun (h : Head) (f : AGen) (s : State) : Host.Outcome State Fault Refusal :=
  runGated (.arun h f) (sylArun f) s

/-- ASTOP (R290). -/
def sylAstop (_f : AGen) (s : State) : Act :=
  .done (modAgu s (fun g => { g with run := false }))

/-- ASTOP with its gate. -/
def execAstop (h : Head) (f : AGen) (s : State) : Host.Outcome State Fault Refusal :=
  runGated (.astop h f) (sylAstop f) s

end Sys2Proof.Machine
end

