-- ==== Sys2Proof/Machine/Ends.lean ====
section
/-!
DEFINITION. Endpoint words and the checks of an end of a copy, which the bus and the peer transfers share (spec
13_memory_instructions.md R279, R282).
-/
namespace Sys2Proof.Machine

/-- REC of an endpoint word (R279). -/
def endRec (e : Word) : Nat := bits e.toNat 63 59
/-- HND of an endpoint word. -/
def endHnd (e : Word) : Nat := bits e.toNat 58 54
/-- OFF of an endpoint word. -/
def endOff (e : Word) : Nat := bits e.toNat 51 0

/-- Is an endpoint word well formed for the record it names (R279)? -/
def endOk (t : Task) (e : Word) : Bool :=
  decide (bits e.toNat 53 52 = 0) && (decide (endHnd e = 0) || decide ((recReg t (endRec e)).space = 2))

/-- Must an endpoint wait for its record to be loaded (R277)? -/
def endPending (s : State) (e : Word) : Bool := recPending s s.cur (curTask s).num (endRec e)

/-- The first byte of a row, as an offset, at which a test fails that holds of a run exactly if it holds of each byte of it. It is
sought by pieces of 64 bytes and then within the piece. -/
def firstByte (ok : Nat → Nat → Bool) (o n : Nat) : Option Nat :=
  if ok o n then none
  else
    let i := ((List.range (ceilDiv n 64)).find? (fun i => !ok (o + 64 * i) (min 64 (n - 64 * i)))).getD 0
    some (((List.range 64).map (fun k => o + 64 * i + k)).find? (fun b => !ok b 1) |>.getD o)

/-- Check 5 on a row of a copy end, in every bounds mode: the first failing offset. -/
def endBounds (b : Rec) (r : Int × Nat) : Option Int :=
  let lim : Int := min (b.extent : Int) ((2 : Int) ^ 64 - b.base)
  if r.2 = 0 then none
  else if r.1 < 0 ∨ lim ≤ r.1 then some r.1
  else if lim < r.1 + r.2 then some lim
  else none

/-- Check 7 on a row: inside the handle's page and its space. -/
def endPage (s : State) (b : Rec) (h : Handle) (r : Int × Nat) : Option Nat :=
  firstByte (fun o n =>
    let va := b.base + o
    decide (h.vbase ≤ va) && decide (va + n ≤ h.vbase + pageSize h.size) && reachable s h (h.phys + (va - h.vbase)) n) r.1.toNat r.2

/-- The object tables are closed to a row (R79). -/
def endTable (s : State) (b : Rec) (h : Handle) (r : Int × Nat) : Option Nat :=
  firstByte (fun o n =>
    let a := handleFlat h (h.phys + (b.base + o - h.vbase))
    !(isTm a && hitsTable s a n)) r.1.toNat r.2

/-- Check 8 on a row: the first failing offset and its fault. -/
def endGs (who : Agent) (b : Rec) (r : Int × Nat) : Option (Nat × FCode) :=
  let at' := fun (o n : Nat) => gsFault who (b.base + o) n
  (firstByte (fun o n => (at' o n).isNone) r.1.toNat r.2).bind (fun o => (at' o 1).map (fun c => (o, c)))

/-- The flat address of an offset of an end that passed its checks. -/
def endFlat (who : Agent) (b : Rec) (h : Handle) (off : Nat) : Nat :=
  if b.space = 2 then handleFlat h (h.phys + (b.base + off - h.vbase))
  else if b.space = 1 then b.base + off
  else
    match who with
    | .core t c => lsFlat t c (b.base + off)
    | .sup _ => 0

/-- The checks of R90 on a copy end (R282): `unit` is the alignment of OFF and, for 64, of the address that it gives (R91), `rows`
the offsets from BASE and the lengths it covers. With no row, the checks on bytes pass. -/
def checkEnd (s : State) (slot : Nat) (k : Kind) (unit : Nat) (e : Word) (rows : List (Int × Nat)) : Except FaultInfo CopyEnd :=
  let t := curTask s
  let b := recReg t (endRec e)
  let h := handleReg t (endHnd e)
  let at' := fun (o : Int) => BitVec.ofInt 64 ((b.base : Int) + o)
  let fail := fun (c : FCode) (o : Int) (n : Nat) => Except.error (checkFault c (at' o) slot n)
  let off : Int := (endOff e : Nat)
  let first : Int := match rows.find? (fun r => r.2 ≠ 0) with
    | some r => r.1
    | none => off
  let whole : CopyEnd :=
    { adr := endFlat s.cur b h (endOff e), stride := 0, recd := endRec e, recBits := b,
      hnd := if b.space = 2 then some (endHnd e, h) else none }
  if b.loaded = false ∨ b.revoked = true then fail .rights off 1
  else if b.space = 0 ∧ isSup s.cur = true then .error (bundleFault s .featureAbsent slot)
  else if permits k (b.bits.getLsbD 81) (b.bits.getLsbD 80) (b.bits.getLsbD 79) = false then fail .rights off 3
  else if endOff e % unit ≠ 0 ∨ (unit = 64 ∧ (b.base + endOff e) % 64 ≠ 0) then fail .misaligned off 4
  else
    match rows.findSome? (endBounds b) with
    | some o => fail .bounds o 5
    | none =>
      if b.space = 2 then
        if 4 ≤ h.field 126 123 then .error (checkFault .translation (word (endOff e)) slot 6)
        else if h.valid = false then fail .handleStale first 6
        else if handleTag (agentTower s.cur) h ≠ b.tag ∨
            permits k (h.bits.getLsbD 117) (h.bits.getLsbD 116) (h.bits.getLsbD 114) = false then fail .rights first 6
        else
          match rows.findSome? (endPage s b h) with
          | some o => fail .bounds o 7
          | none =>
            match rows.findSome? (endTable s b h) with
            | some o => fail .priv o 7
            | none => .ok whole
      else if b.space = 1 then
        match rows.findSome? (endGs s.cur b) with
        | some (o, c) => fail c o 8
        | none => .ok whole
      else .ok whole

/-- The address in an end's space of one of its flat addresses: what FADR reports (R286). -/
def endFadr (e : CopyEnd) (a : Nat) : Word :=
  let q : Ask :=
    { recd := e.recBits, hnd := (e.hnd.map Prod.snd).getD ⟨0, 0⟩, wired := none, kind := .load, unit := 64, es := 64, off := 0,
      rows := [], tile := false }
  fadrOf q a

/-- What FADR reports for an uncorrectable error at a flat address of a source (R58, R286) (DEDUCED, log 107). -/
def endErrAdr (e : CopyEnd) (a : Nat) : Word := if isTm a then endFadr e a - word e.recBits.base else endFadr e a

/-- The first byte of a range of memory that an uncorrectable error takes (R58, R65, R378). -/
def firstLost (s : State) (a n : Nat) : Option Nat :=
  if lostAt s a then some a
  else ((s.bad.filter (fun g => decide (a < g * 8 + 8) && decide (g * 8 < a + n))).map (fun g => max a (g * 8))).min?

/-- The poison of the record that an endpoint names (R378). -/
def endPoison (s : State) (e : Word) (slot : Nat) : Option FaultInfo :=
  (poisonOf (curTask s) (.record (endRec e))).map (fun a => mkFault .uncorrected a slot)

end Sys2Proof.Machine
end

