-- ==== Sys2Proof/Machine/Blocks.lean ====
section
/-!
DEFINITION. Block endpoints: the memory blocks that a command, a WATCH or a macro names (spec 15_task_sequence_system.md
R330, R333, R343).
-/
namespace Sys2Proof.Machine

/-- Is the space of a block's record one that the block allows (R330)? `own` restricts the block to SPACE 0, except that the
supervisor core uses SPACE 1 where `supGs` says so. -/
def blockSpaceOk (s : State) (own supGs : Bool) (b : Rec) : Bool :=
  if isSup s.cur then decide (b.space = 0) || (decide (b.space = 1) && (!own || supGs))
  else decide (b.space = 0) || (decide (b.space = 1) && !own)

/-- The checks of a block of `n` bytes that must be `align`-byte aligned, in a record of any space (R90, R349)
(DEDUCED, log 4). -/
def checkRange (s : State) (slot : Nat) (k : Kind) (n align : Nat) (e : Word) : Except FaultInfo CopyEnd :=
  let b := recReg (curTask s) (endRec e)
  match checkEnd s slot k 1 e [] with
  | .error x => .error x
  | .ok _ =>
    if (b.base + endOff e) % align ≠ 0 then .error (checkFault .misaligned (word (b.base + endOff e)) slot 4)
    else checkEnd s slot k 1 e [((endOff e : Nat), n)]

/-- The checks of a block endpoint, at its bundle (R330, R333). -/
def checkBlock (s : State) (slot : Nat) (k : Kind) (n align : Nat) (own supGs : Bool) (e : Word) : Except FaultInfo CopyEnd :=
  if endOk (curTask s) e = false ∨ blockSpaceOk s own supGs (recReg (curTask s) (endRec e)) = false then
    .error (bundleFault s .illegalOperand slot)
  else checkRange s slot k n align e

/-- Go on with a block that passes its checks: its record must have arrived and be sound (R277, R378). -/
def withChecked (s : State) (slot : Nat) (e : Word) (check : Except FaultInfo CopyEnd) (f : CopyEnd → Act) : Act :=
  if endPending s e then .stall
  else
    match endPoison s e slot with
    | some x => .trap x
    | none =>
      match check with
      | .error x => .trap x
      | .ok a => f a

/-- Go on with a block endpoint. -/
def withBlock (s : State) (slot : Nat) (k : Kind) (n align : Nat) (own supGs : Bool) (e : Word) (f : CopyEnd → Act) : Act :=
  withChecked s slot e (checkBlock s slot k n align own supGs e) f

/-- Go on with a block that may lie in any space, with its handle for SPACE 2 (R349). -/
def withAnyBlock (s : State) (slot : Nat) (k : Kind) (n align : Nat) (e : Word) (f : CopyEnd → Act) : Act :=
  withChecked s slot e
    (if endOk (curTask s) e then checkRange s slot k n align e else .error (bundleFault s .illegalOperand slot)) f

end Sys2Proof.Machine
end

