-- ==== Sys2Proof/Machine/Matrix.lean ====
section
/-!
DEFINITION. The matrix array and the bus (spec 14_vector_matrix.md R311 to R319, 10_number_formats.md R206 to R209,
02_scratchpads.md R38 and R39, 03_tower_memory.md R60 to R63, 08_draft_and_check.md R159 and R160).
-/
namespace Sys2Proof.Machine

/-! ### Formats (R197, R206) -/

/-- A format that a code and a width subfield name, if the array accepts it for A. -/
def arrayA (code sub : Nat) : Option Fmt :=
  if sub = 0 ∧ (code = 0 ∨ code = 11 ∨ code = 12) then some ⟨BitVec.ofNat 4 code, 0⟩
  else if code = 13 ∧ (sub = 2 ∨ sub = 6) then some ⟨13, widthOf sub⟩
  else none

/-- The same for B. -/
def arrayB (code sub : Nat) : Option Fmt :=
  if code = 13 ∧ sub < 7 then some ⟨13, widthOf sub⟩
  else if code = 14 ∧ (sub = 0 ∨ sub = 2 ∨ sub = 6) then some ⟨14, widthOf sub⟩
  else none

/-! ### Slices (R62, R63, R159, R160) -/

/-- The group of a plane: 7 and 6, 5 and 4, 3 to 0. -/
def planeGroup (p : Nat) : Nat := if 6 ≤ p then 0 else if 4 ≤ p then 1 else 2

/-- The offset of a check slice within the plane data of a tile of `kb` K blocks. -/
def planeOffset (kb p k s : Nat) : Nat :=
  match planeGroup p with
  | 0 => k * 2048 + (7 - p) * 1024 + s * 256
  | 1 => 2048 * kb + k * 2048 + (5 - p) * 1024 + s * 256
  | _ => 4096 * kb + k * 4096 + (3 - p) * 1024 + s * 256

/-- Where the plane data begin in a weight tile. -/
def planeBase (kb : Nat) : Nat := ceilDiv (256 * kb) 4096 * 4096

/-- Slice `j` of an epoch: its K block, plane and sub-block. -/
def sliceAt (planes j : Nat) : Nat × Nat × Nat := (j / (4 * planes), 7 - j / 4 % planes, j % 4)

/-- L of an epoch. -/
def BusCfg.lead (c : BusCfg) : Nat := bits (c.words.getD 0 0).toNat 55 52
/-- KB0 of an epoch. -/
def BusCfg.kb0 (c : BusCfg) : Nat := bits (c.words.getD 0 0).toNat 31 0
/-- TKB of an epoch. -/
def BusCfg.tkb (c : BusCfg) : Nat := bits (c.words.getD 3 0).toNat 31 0
/-- Does a plane come from the scratchpad source? -/
def BusCfg.fromSlot (c : BusCfg) (p : Nat) : Bool := decide (c.src = 3) || (decide (c.src = 4) && decide (8 - c.lead ≤ p))

/-- The offset of a slice from its source, S or T. -/
def BusCfg.offset (c : BusCfg) (k p s : Nat) : Nat :=
  if c.fromSlot p then planeOffset c.kbs p k s else planeBase c.tkb + planeOffset c.tkb p (c.kb0 + k) s

/-- The flat address of a slice, and the checked source that it is read from. -/
def BusCfg.sliceAdr (c : BusCfg) (j : Nat) : Nat × Option CopyEnd :=
  let (k, p, s) := sliceAt c.planes j
  let o := c.offset k p s
  if c.fromSlot p then (c.s + o, c.ends.getLast?) else (c.t + o, c.ends.head?)

/-- The rows that an epoch reads from one of its sources, as offsets. -/
def BusCfg.rows (c : BusCfg) (slot : Bool) : List (Nat × Nat) :=
  (List.range c.kbs).flatMap (fun k =>
    ((List.range c.planes).filter (fun i => c.fromSlot (7 - i) = slot)).map (fun i => (c.offset k (7 - i) 0, 1024)))

/-- The bit of a check slice for a column and an element of the sub-block (R63). -/
def sliceBit (x : Nat) (c k : Nat) : Bool := x.testBit (8 * (128 * (c / 128) + 16 * k + c % 128 / 8) + c % 8)

/-! ### The array -/

/-- A list filled with zeros to a length. -/
def padTo (n : Nat) (l : List Int) : List Int := l ++ List.replicate (n - l.length) 0

/-- Is a column in the column set (R311)? -/
def inColumns (a : Arr) (c : Nat) : Bool := a.cols || decide (c / 128 = if a.half then 1 else 0)

/-- A block partial, held in 22 bits (R208; DESIGN CHOICE, log 25). -/
def partial22 (x : Int) : Int := signed 22 (unsign 22 x)

/-- Change the array of the running task. -/
def modArr (s : State) (g : Arr → Arr) : State := modTask s (fun t => { t with arr := g t.arr })

/-- Every cell of the open block changed by its row and column. -/
def mapBlock (a : Arr) (b : Block) (g : Nat → Nat → Int → Int) : List Int :=
  ((padTo 8192 b.p).zipIdx).map (fun x =>
    let c := x.2 % 256
    if inColumns a c then partial22 (g (x.2 / 256) c x.1) else x.1)

/-- The eight A elements of a sub-block of a row. -/
def rowPart (a : Arr) (r sub : Nat) : List Int := (a.a.drop (32 * r + 8 * sub)).take 8

/-- The products of one row's sub-block with a slice's bits of a column. -/
def beatSum (x : Nat) (c : Nat) (row : List Int) : Int :=
  (row.zipIdx).foldl (fun q e => if sliceBit x c e.2 then q + e.1 else q) 0

/-- An MACC beat on the open block (R315). -/
def maccBeat (a : Arr) (b : Block) (sub : Nat) (x : Nat) : Block :=
  { b with p := mapBlock a b (fun r c p =>
      let q := beatSum x c (rowPart a r sub)
      if b.s = 0 then p - q else p + q) }

/-- A half-step beat (R315). -/
def macchBeat (a : Arr) (b : Block) (sub : Nat) : Block :=
  { b with p := mapBlock a b (fun r _ p => p + (rowPart a r sub).foldl (· + ·) 0) }

/-- A shift beat (R315). -/
def shiftBeat (a : Arr) (b : Block) : Block := { b with p := mapBlock a b (fun _ _ p => 2 * p), s := b.s + 1 }

/-- Accumulate (R209): the new element and whether it saturated. -/
def accumulate (z p : Int) (d : Int) : Int × Bool :=
  let v := if p = 0 then 0 else roundInt false (decide (p < 0)) p.natAbs d
  let w := z + v
  if w < -(2 ^ 47 : Int) then (-(2 ^ 47 : Int), true) else if (2 ^ 47 - 1 : Int) < w then (2 ^ 47 - 1, true) else (w, false)

/-- CloseBlock (R314): every block partial accumulated into its tile. -/
def closeBlock (a : Arr) : Arr × BitVec 3 :=
  match a.blk with
  | none => (a, 0)
  | some b =>
    let zs := padTo 8192 (a.z.getD b.tile [])
    let x := a.x.getD b.tile 0
    let cells := ((zs.zip (padTo 8192 b.p)).zipIdx).map (fun y =>
      accumulate y.1.1 y.1.2
        (a.ea.getD (y.2 / 256) 0 + (a.e.getD (y.2 % 256) 0 : Nat) - 127 - (b.s : Nat) - x))
    ({ a with z := setAt a.z b.tile (cells.map Prod.fst), blk := none }, if cells.any Prod.snd then fpsSat else 0)

/-- Is a tile valid? -/
def tileValid (a : Arr) (z : Nat) : Bool := a.valid.getD z false

/-- A TILE_INVALID fault of an MTX syllable: FADR zero, the tile in DETAIL (R367). `spoil` is the tile it invalidates. -/
def tileFault (tile : Nat) (spoil : Option Nat) : Act := .trap { mkFault .tileInvalid 0 6 tile with tile := spoil }

/-- DETAIL of a beat without an open block, where no tile is named: a free value (DESIGN CHOICE, log 52). -/
def noTile (s : State) : Nat := Config.freeNat s.free % 8

/-- The fault of reading a poisoned tile, if it is poisoned (R378). -/
def tilePoison (t : Task) (z : Nat) : Option FaultInfo := (poisonOf t (.tile z)).map (fun a => mkFault .uncorrected a 6)

/-- Close the open block first, where there is one: its tile must be valid (R318). SAT rises at once. -/
def closing (go : Bool) (s : State) (now : Bool := false) : Act :=
  let t := curTask s
  match t.arr.blk with
  | none => .done s
  | some b =>
    if go then
      if tileValid t.arr b.tile = false then tileFault b.tile none
      else
        match tilePoison t b.tile with
        | some f => .trap f
        | none =>
          let (a, fl) := closeBlock t.arr
          let s1 := modTask s (fun t => { t with arr := a })
          if now then .done (modTask s1 (fun t => { t with fps := t.fps ||| fl }))
          else if fl = 0 then .done s1
          else .done (pushDue s1 1 6 (.scalar 0 0) none fl)
    else .done s

/-! ### Bus groups (R38, R39, R313) -/

/-- The lead that stands for a task's gang; a task without a gang is a group of its own (DEDUCED, log 28). -/
def gangLead (t : Task) : BitVec 32 :=
  match t.gang with
  | n :: _ => n
  | [] => t.num

/-- The place of a compute core's bus: layer and cluster. -/
def busLayer (c : BitVec 6) : BitVec 1 := BitVec.ofNat 1 (coreLayer c)
/-- The cluster of a compute core's bus. -/
def busCluster (c : BitVec 6) : BitVec 3 := BitVec.ofNat 3 (coreCluster c)

/-- A task's membership. -/
def memberOf (g : BusGrp) (num : BitVec 32) : Option BusMember := g.members.find? (fun m => decide (m.num = num))

/-- Detach a task from its group (R39). -/
def detachBus (s : State) (num : BitVec 32) : State :=
  { s with
    buses := (s.buses.map (fun g => { g with members := g.members.filter (fun m => m.num ≠ num) })).filter
      (fun g => !g.members.isEmpty) }

/-- Is a slice of the running epoch delivered? -/
def epochMoved (g : BusGrp) : Bool := g.slice.isSome || g.members.any (fun m => decide (m.taken ≠ 0))

/-- Ask for a new epoch in a group: a task that attaches while no slice of the running epoch is delivered joins that epoch,
which then waits for every member again (R313; DEDUCED, log 28). -/
def askEpoch (g : BusGrp) (num : BitVec 32) (c : BusCfg) : BusGrp :=
  match memberOf g num with
  | some _ => { g with members := g.members.map (fun m => if m.num = num then { m with next := some c } else m) }
  | none =>
    let me : BusMember := ⟨num, none, some c, 0, false, false⟩
    if epochMoved g then { g with members := g.members ++ [me] }
    else
      { g with members := (g.members.map (fun m =>
          if m.next.isSome then m else { m with next := m.cfg, cfg := none, bad := false })) ++ [me] }

/-- Attach a task at its place and ask for an epoch (R313). -/
def attachBus (s : State) (t : BitVec 3) (c : BitVec 6) (task : Task) (cfg : BusCfg) : State :=
  match busOf s task.num with
  | some g => { s with buses := s.buses.map (fun h => if h = g then askEpoch g task.num cfg else h) }
  | none =>
    let here := fun (g : BusGrp) =>
      decide (g.gang = gangLead task) && decide (g.tower = t) && decide (g.layer = busLayer c) && decide (g.cluster = busCluster c)
    if s.buses.any here then
      { s with buses := s.buses.map (fun g => if here g then askEpoch g task.num cfg else g) }
    else
      { s with buses := s.buses ++
          [⟨t, busLayer c, busCluster c, gangLead task, [⟨task.num, none, some cfg, 0, false, false⟩], none, []⟩] }

/-- Does another gang's group with a member on its cores hold the bus of a core (R39, R312)? A gang that is saved whole does not keep
its bus (DESIGN CHOICE, log 131). -/
def busTaken (s : State) (t : BitVec 3) (c : BitVec 6) (lead : BitVec 32) : Bool :=
  s.buses.any (fun g =>
    decide (g.gang ≠ lead) && decide (g.tower = t) && decide (g.layer = busLayer c) && decide (g.cluster = busCluster c) &&
      g.members.any (fun m => (findPlaced s m.num).isSome))

/-- May a group's next epoch start: every member has asked for one (R313)? -/
def epochReady (g : BusGrp) : Bool := g.members.all (fun m => m.next.isSome) && !g.members.isEmpty

/-- The part of a configuration that all members must share: words 1 to 4, and with them the source kind and the planes
(DEDUCED, log 27). -/
def sameEpoch (x y : BusCfg) : Bool := decide (x.words = y.words) && decide (x.src = y.src) && decide (x.planes = y.planes)

/-- Start a group's next epoch: where the members disagree it delivers nothing (R313). -/
def startEpoch (g : BusGrp) : BusGrp :=
  let cs := g.members.filterMap (fun m => m.next)
  let bad := match cs with
    | c :: l => !l.all (sameEpoch c)
    | [] => true
  { g with
    slice := none
    ahead := []
    members := g.members.map (fun m => { m with cfg := m.next, next := none, taken := 0, waits := false, bad := bad }) }

/-- BUS_EPOCH_START (R313): the group of a bus starts its next epoch once every member has asked for it. -/
def execBusEpochStart (t : BitVec 3) (layer : BitVec 1) (cluster : BitVec 3) (s : State) : Host.Outcome State Fault Refusal :=
  let here := fun (g : BusGrp) => decide (g.tower = t) && decide (g.layer = layer) && decide (g.cluster = cluster)
  .next { s with buses := s.buses.map (fun g => if here g ∧ epochReady g then startEpoch g else g) }

/-! ### MCFG (R312) -/

/-- A 64-bit word of a configuration image or record. -/
def imageWord (v : Nat) (i : Nat) : Nat := v >>> (64 * i) % 2 ^ 64

/-- The fields of a configuration image that are well formed, whatever the core (R312, first check). -/
def imageOk (v : Nat) : Bool :=
  let w := imageWord v
  let src := bits (w 0) 43 40
  (bit (w 0) 47 || decide (bits (w 0) 63 48 = 0)) && decide (bits (w 0) 46 44 = 0) && decide (bits (w 0) 39 38 = 0) && decide (bits (w 0) 35 32 = 0) && !bit (w 0) 24 &&
    decide (bits (w 0) 16 0 = 0) && decide (src ≤ 4) && !(bit (w 0) 37 && bit (w 0) 36) && decide (bits (w 1) 51 32 = 0) &&
    decide (bits (w 4) 63 32 = 0) && decide (w 5 = 0) && decide (w 6 = 0) && decide (w 7 = 0) &&
    (arrayA (bits (w 0) 31 28) (bits (w 0) 27 25)).isSome && (arrayB (bits (w 0) 23 20) (bits (w 0) 19 17)).isSome &&
    (if src < 2 then decide (w 1 = 0) && decide (w 2 = 0) && decide (w 3 = 0) && decide (w 4 = 0)
     else
       decide (1 ≤ bits (w 1) 63 56) && decide (bits (w 1) 63 56 ≤ 64) &&
         (if src = 4 then decide (bits (w 1) 55 52 = 2) || decide (bits (w 1) 55 52 = 4) else decide (bits (w 1) 55 52 = 0)) &&
         (if src = 2 then decide (w 3 = 0) else true) && (if src = 3 then decide (w 2 = 0) && decide (w 4 = 0) && decide (bits (w 1) 31 0 = 0) else true) &&
         (if src = 3 then true else decide (w 4 ≠ 0) && decide (bits (w 1) 31 0 + bits (w 1) 63 56 ≤ w 4)))

/-- The epoch that an image asks for, its sources not yet placed. -/
def imageCfg (v : Nat) (bf : Fmt) (stamp : Nat) : BusCfg :=
  { words := [word (imageWord v 1), word (imageWord v 2), word (imageWord v 3), word (imageWord v 4)],
    src := bits (imageWord v 0) 43 40, planes := bf.k, t := 0, s := 0, ends := [], stamp := stamp }

/-- One source of an epoch, checked as a copy source over every byte that the epoch will read (R312; DEDUCED, log 26). -/
def busEnd (s : State) (e : Word) (rows : List (Nat × Nat)) : Except FaultInfo (CopyEnd × Word) :=
  let b := recReg (curTask s) (endRec e)
  if endOk (curTask s) e = false then .error (bundleFault s .illegalOperand 6)
  else
    match checkEnd s 6 .load 64 e (rows.map (fun r => (((endOff e + r.1 : Nat) : Int), r.2))) with
    | .error f => .error f
    | .ok c => .ok (c, word (b.base + endOff e))

/-- Does S lie in a scratchpad of the core's cluster and tower? -/
def inClusterPads (t : BitVec 3) (c : BitVec 6) (a : Nat) : Bool :=
  isGs a && !bit a 28 && decide (a / 2 ^ 29 = t.toNat) && decide (bits a 26 24 = coreCluster c)

/-- Both sources of an epoch, placed and checked (R312, third check). -/
def placeCfg (s : State) (c : BusCfg) : Except FaultInfo BusCfg :=
  let t : Except FaultInfo (Option CopyEnd) :=
    if c.src = 3 then .ok none else (busEnd s (c.words.getD 1 0) (c.rows false)).map (fun x => some x.1)
  match t with
  | .error f => .error f
  | .ok te =>
    let c1 := { c with t := (te.map CopyEnd.adr).getD 0, ends := te.toList }
    if c.src = 2 then .ok c1
    else
      match busEnd s (c.words.getD 2 0) (c.rows true) with
      | .error f => .error f
      | .ok (se, sw) =>
        match s.cur with
        | .core tw' cc =>
          if inClusterPads tw' cc se.adr then .ok { c1 with s := se.adr, ends := c1.ends ++ [se] }
          else .error (checkFault .rights sw 6 8)
        | .sup _ => .error (bundleFault s .featureAbsent 6)

/-- Formats, column set, exponent and attachment, once an MCFG has passed its checks. -/
def configure (v : Nat) (z : Nat) (af bf : Fmt) (cfg : Option BusCfg) (s : State) : State :=
  let w0 := imageWord v 0
  let s1 := modArr s (fun a =>
    { a with
      afmt := some af, bfmt := some bf, cols := bit w0 37, half := bit w0 36
      x := if bit w0 47 then setAt a.x z (signed 16 (bits w0 63 48)) else a.x })
  match cfg, s.cur with
  | some c, .core t cc => attachBus { s1 with nextId := s1.nextId + 1 } t cc (curTask s) c
  | some _, .sup _ => s1
  | none, _ => if bits w0 43 40 = 1 then detachBus s1 (curTask s).num else s1

/-- Must an MCFG wait for a record that its endpoint words name? -/
def cfgPending (s : State) (v : Nat) : Bool :=
  let src := bits (imageWord v 0) 43 40
  ((decide (src = 2) || decide (src = 4)) && endPending s (word (imageWord v 2))) ||
    ((decide (src = 3) || decide (src = 4)) && endPending s (word (imageWord v 3)))

/-- Does a core of the draft layer act? -/
def onDraft (s : State) : Bool :=
  match s.cur with
  | .core _ c => decide (coreLayer c = 0)
  | .sup _ => false

/-- MCFG (R312, R313). -/
def sylMcfg (f : MatF) (s : State) : Act :=
  let t := curTask s
  let v := (vectorIn t f.s1).toNat % 2 ^ 512
  let w0 := imageWord v 0
  let src := bits w0 43 40
  match imageOk v, arrayA (bits w0 31 28) (bits w0 27 25), arrayB (bits w0 23 20) (bits w0 19 17) with
  | true, some af, some bf =>
    if (bit w0 37 ∧ hasFeature s 5 = false) ∨ (src = 4 ∧ onDraft s = true) then .trap (bundleFault s .featureAbsent 6)
    else if cfgPending s v then .stall
    else
      let cfg : Except FaultInfo (Option BusCfg) :=
        if src < 2 then .ok none
        else
          match placeCfg s (imageCfg v bf s.nextId) with
          | .error x => .error x
          | .ok c => .ok (some c)
      match cfg with
      | .error x => .trap x
      | .ok c =>
        let clash := match s.cur with
          | .core tw cc => decide (2 ≤ src) && busTaken s tw cc (gangLead t)
          | .sup _ => false
        if clash then .trap (checkFault .rights (word (Config.freeNat s.free)) 6 0)
        else
          let change := t.arr.afmt ≠ some af ∨ t.arr.bfmt ≠ some bf
          let setx := bit w0 47 ∧ t.arr.blk.map Block.tile = some f.z.toNat
          (closing (decide (change ∨ setx)) s).bind (fun s => .done (configure v f.z.toNat af bf c s))
  | _, _, _ => .trap (bundleFault s .illegalOperand 6)

/-- MCFG with its gate. -/
def execMcfg (h : Head) (f : MatF) (s : State) : Host.Outcome State Fault Refusal :=
  runGated (.mcfg h f) (sylMcfg f) s

/-! ### Tiles and blocks -/

/-- MZERO (R317). -/
def sylMzero (f : MatF) (s : State) : Act :=
  let z := f.z.toNat
  .done (modTask s (fun t =>
    { t with
      arr := { t.arr with
        z := setAt t.arr.z z [], valid := setAt t.arr.valid z true
        blk := if t.arr.blk.map Block.tile = some z then none else t.arr.blk }
      poison := unpoison (.tile z) t.poison }))

/-- MZERO with its gate. -/
def execMzero (h : Head) (f : MatF) (s : State) : Host.Outcome State Fault Refusal :=
  runGated (.mzero h f) (sylMzero f) s

/-- The format of the data part of ga; zero, which is i8, before any gather (R143). -/
def gaFormat (t : Task) : Fmt := t.gaD.fmt.getD ⟨0, 0⟩

/-- MPUSH (R314). -/
def sylMpush (f : MatF) (s : State) : Act :=
  let t := curTask s
  let z := f.z.toNat
  if tileValid t.arr z = false then tileFault z none
  else if t.arr.afmt ≠ some (gaFormat t) then .trap (bundleFault s .illegalOperand 6)
  else
    match tilePoison t z, t.gaD.poisoned with
    | some x, _ => .trap x
    | none, some a => .trap (mkFault .uncorrected a 6)
    | none, none =>
      let v := (vectorIn t f.s1).toNat >>> (2048 * (f.aux.toNat % 8))
      (closing true s).bind (fun s =>
        .done (modArr s (fun a =>
          { a with
            a := padTo 1024 t.gaD.a, ea := padTo 32 t.gaD.ea, e := unpack 8 256 v, blk := some ⟨z, [], 0⟩ })))

/-- MPUSH with its gate. -/
def execMpush (h : Head) (f : MatF) (s : State) : Host.Outcome State Fault Refusal :=
  runGated (.mpush h f) (sylMpush f) s

/-- MSHF (R315). -/
def sylMshf (_f : MatF) (s : State) : Act :=
  match (curTask s).arr.blk with
  | none => tileFault (noTile s) none
  | some b => .done (modArr s (fun a => { a with blk := some (shiftBeat a b) }))

/-- MSHF with its gate. -/
def execMshf (h : Head) (f : MatF) (s : State) : Host.Outcome State Fault Refusal :=
  runGated (.mshf h f) (sylMshf f) s

/-- MACCH (R315). -/
def sylMacch (f : MatF) (s : State) : Act :=
  match (curTask s).arr.blk with
  | none => tileFault (noTile s) none
  | some b => .done (modArr s (fun a => { a with blk := some (macchBeat a b (f.aux.toNat % 4)) }))

/-- MACCH with its gate. -/
def execMacch (h : Head) (f : MatF) (s : State) : Host.Outcome State Fault Refusal :=
  runGated (.macch h f) (sylMacch f) s

/-! ### MACC and the vertical exclusion rule (R38, R60, R61, R315, R363) -/

/-- Does the beat rate or the power throttle hold an MACC in this cycle (R61, R363)? -/
def beatHeld (s : State) (a : Agent) : Bool :=
  let c := getCore s a
  (decide (c.rate = .half) && decide (coreCycle s (agentTower a) < coreCycleAt s (agentTower a) c.lastMacc + 2)) || withheld s a

/-- Is slice `j` free to be delivered: has every member of the epoch taken it or does it wait for it (R38)? -/
def sliceDue (g : BusGrp) (num : BitVec 32) (j : Nat) : Bool :=
  g.members.all (fun m =>
    m.cfg.isNone || decide (j < m.taken) || (decide (m.taken = j) && m.next.isNone && (m.waits || decide (m.num = num))))

/-- Does a store or an atomic that a member issued before its MCFG to the bytes of a slice stand before its read (R313)? -/
def sliceHeld (s : State) (g : BusGrp) (a : Nat) : Bool :=
  spireHeld s a ||
    g.members.any (fun m =>
      match m.cfg with
      | some c => s.acc.any (fun x =>
          decide (x.num = m.num) && opStores x.op && decide (x.id < c.stamp) && x.all.any (rangesMeet (a, 256)))
      | none => false)

/-- Has slice `j` of the running epoch been delivered? -/
def delivered (g : BusGrp) (j : Nat) : Bool := g.slice.any (fun x => decide (x.1 = j))

/-- A member takes slice `j`. -/
def takeSlice (g : BusGrp) (num : BitVec 32) (j : Nat) (x : BitVec 2048) : BusGrp :=
  { g with
    slice := some (j, x)
    ahead := if delivered g j then g.ahead else g.ahead.drop 1
    members := g.members.map (fun m => if m.num = num then { m with taken := j + 1, waits := false } else m) }

/-- The slice that the acting core's next MACC takes, with the state in which it has taken it; a stall or a fault otherwise (R160,
R313). A slice for a draft group is read and tested whole (DESIGN CHOICE, log 141). -/
def nextSlice (spoil : Nat) (s : State) : Except Act (BitVec 2048 × State) :=
  let num := (curTask s).num
  match busOf s num with
  | none => .error (tileFault spoil (some spoil))
  | some g =>
    match memberOf g num with
    | none => .error (tileFault spoil (some spoil))
    | some m =>
      match m.next, m.cfg with
      | some _, _ => .error (.wait .slice)
      | none, none => .error (.wait .slice)
      | none, some c =>
        let j := m.taken
        if m.bad ∨ c.total ≤ j then .error (tileFault spoil (some spoil))
        else if sliceDue g num j = false then .error (.wait .slice)
        else
          let (a, src) := c.sliceAdr j
          let give := fun (x : BitVec 2048) =>
            Except.ok (x, issueAgain { s with buses := s.buses.map (fun h => if h = g then takeSlice g num j x else h) }
              ((g.members.filter (fun m => m.waits && decide (m.taken = j))).map BusMember.num))
          match (g.slice.filter (fun x => decide (x.1 = j))).map Prod.snd, g.ahead with
          | some x, _ => give x
          | none, x :: _ => give x
          | none, [] =>
            if sliceHeld s g a then .error (.wait .slice)
            else
              match firstLost s a 256 with
              | some x => .error (.trap (mkFault .uncorrected ((src.map (fun e => endErrAdr e x)).getD (word x)) 6))
              | none => give (BitVec.ofNat 2048 (readNat s a 256))

/-- The bus of a group whose epoch runs reads its next slice ahead of the members' MACCs, unless a store before the epoch or an
error in its bytes stands in the way (R313). -/
def readAhead (s : State) (g : BusGrp) : BusGrp :=
  match g.members.findSome? BusMember.cfg with
  | none => g
  | some c =>
    let j := g.ahead.length + (match g.slice with | some x => x.1 + 1 | none => 0)
    let a := (c.sliceAdr j).1
    if c.total ≤ j ∨ g.members.any BusMember.bad ∨ sliceHeld s g a ∨ badRange s a 256 then g
    else { g with ahead := g.ahead ++ [BitVec.ofNat 2048 (readNat s a 256)] }

/-- The buses of a layer of a cluster read ahead (DESIGN CHOICE, log 101). -/
def busAhead (t : BitVec 3) (layer : BitVec 1) (cluster : BitVec 3) (s : State) : State :=
  { s with buses := s.buses.map (fun g => if g.tower = t ∧ g.layer = layer ∧ g.cluster = cluster then readAhead s g else g) }

/-- The marks of a core that issues an MACC (R60, R61). -/
def markMacc (s : State) : State :=
  let s1 := beginAskingAt s s.cur
  modCore s1 s.cur (fun c => { c with macced := true, masked := false, lastMacc := s.pkg.cyc })

/-- MACC (R315): without an open block it faults; held by its beat rate or its bus it waits. -/
def sylMacc (f : MatF) (s : State) : Act :=
  match (curTask s).arr.blk with
  | none => tileFault (noTile s) none
  | some b =>
    if beatHeld s s.cur then .wait .beat
    else
      match nextSlice b.tile s with
      | .error a => a
      | .ok (x, s1) => .done (modArr (markMacc s1) (fun a => { a with blk := some (maccBeat a b (f.aux.toNat % 4) x.toNat) }))

/-- MACC with its gate. -/
def execMacc (h : Head) (f : MatF) (s : State) : Host.Outcome State Fault Refusal :=
  runGated (.macc h f) (sylMacc f) s

/-! ### MDRN (R316) -/

/-- The exact value of an accumulator element. -/
def elementValue (z x : Int) : FV := .fin (decide (z < 0)) z.natAbs x

/-- The product of an element and a binary32 scale: of numbers, whose zero has no sign, where the scale is finite (DEDUCED,
log 55); under R202 where it is infinite or NaN. -/
def scaleValue (z x : Int) (y : FV) : FV × BitVec 3 :=
  match y with
  | .fin neg m e => (.fin (decide (z < 0) != neg && decide (z.natAbs * m ≠ 0)) (z.natAbs * m) (x + e), 0)
  | .inf _ => mulFV (elementValue z x) y
  | .nan _ => mulFV (elementValue z x) y

/-- A drained element: scaled by a binary32 lane where one is given, and converted once (R202, R203, R316). -/
def drainLane (ty : BitVec 4) (rtz : Bool) (z x : Int) (scale : Option Nat) : Lane :=
  match scale with
  | none => convertFV ty rtz (elementValue z x)
  | some y =>
    let (p, fl) := scaleValue z x (fdec (fspec 10) y)
    let (v, fl2) := convertFV ty rtz p
    (v, fl ||| fl2)

/-- The drained elements of rows from `row0`, in lane order. -/
def drainRows (f : MatF) (a : Arr) (scale : Option Nat) : List Lane :=
  let n := 2048 / elemSize f.ty
  let zs := ((padTo 8192 (a.z.getD f.z.toNat [])).drop (256 * (f.aux.toNat % 32))).take n
  let x := a.x.getD f.z.toNat 0
  (zs.zipIdx).map (fun y =>
    drainLane f.ty (f.md.getLsbD 0) y.1 x (scale.map (fun v => v >>> (32 * (y.2 % 256)) % 2 ^ 32)))

/-- Clear the drained rows. -/
def clearRows (f : MatF) (a : Arr) : Arr :=
  let n := 2048 / elemSize f.ty
  let zs := padTo 8192 (a.z.getD f.z.toNat [])
  let lo := 256 * (f.aux.toNat % 32)
  { a with z := setAt a.z f.z.toNat (zs.take lo ++ List.replicate n 0 ++ zs.drop (lo + n)) }

/-- MDRN, L = 8 (R316). -/
def sylMdrn (f : MatF) (s : State) : Act :=
  let t := curTask s
  let z := f.z.toNat
  if tileValid t.arr z = false then tileFault z none
  else
    match tilePoison t z with
    | some x => .trap x
    | none =>
      let scale := if f.md.getLsbD 1 then some (vectorIn t f.s2).toNat else none
      (closing (decide (t.arr.blk.map Block.tile = some z)) s).bind (fun s =>
        let a := (curTask s).arr
        let ls := drainRows f a scale
        let s1 := if f.md.getLsbD 3 then modArr s (clearRows f) else s
        .done (pushDue s1 8 6 (.vector (some f.s1.toNat) (toVReg (pack (tyBits f.ty) (ls.map Prod.fst)))) (some .mtx)
          (laneFlags ls)))

/-- MDRN with its gate. -/
def execMdrn (h : Head) (f : MatF) (s : State) : Host.Outcome State Fault Refusal :=
  runGated (.mdrn h f) (sylMdrn f) s

/-! ### Grant windows (R60) -/

/-- Does a core ask for a window: attached, with an MACC issued in the window before or one waiting? -/
def asksWindow (s : State) (a : Agent) : Bool :=
  let c := getCore s a
  c.live && (busOf s c.task.num).isSome && (c.macced || c.masked)

/-- The release tick that decides between the two cores of a column: that of the gang's lead, or the task's own. -/
def grantRelease (s : State) (a : Agent) : Nat :=
  let t := (getCore s a).task
  match findTask s (gangLead t) with
  | some l => l.release.toNat
  | none => t.release.toNat

/-- GRANT_WINDOW (R60): at a window's first cycle the two cores of a column are arbitrated. -/
def execGrantWindow (t : BitVec 3) (cluster : BitVec 3) (col : BitVec 2) (s : State) : Host.Outcome State Fault Refusal :=
  if s.pkg.cyc.toNat % 64 ≠ 0 then .next s
  else
    let da := Agent.core t (coreCode 0 cluster.toNat col.toNat)
    let ca := Agent.core t (coreCode 1 cluster.toNat col.toNat)
    let dk := asksWindow s da
    let ck := asksWindow s ca
    let d := getCore s da
    let c := getCore s ca
    let checkWins :=
      if d.lost ∧ dk ∧ !(c.lost && ck) then false
      else if c.lost ∧ ck ∧ !(d.lost && dk) then true
      else decide (grantRelease s ca ≤ grantRelease s da)
    let both := dk && ck
    let s1 := setCore s da
      { d with asking := dk, macced := false, lost := both && checkWins, rate := if both ∧ checkWins then .half else .full }
    .next (setCore s1 ca
      { c with asking := ck, macced := false, lost := both && !checkWins, rate := if both ∧ !checkWins then .half else .full })

end Sys2Proof.Machine
end

