-- ==== Sys2Proof/Machine/Copy.lean ====
section
/-!
DEFINITION. The copy engine: copies, timed copies, tokens, peer transfers and what arrives from a peer (spec
13_memory_instructions.md R279 to R288, 05_consistency.md R104 to R107, 18_links_host.md R387 to R389).
-/
namespace Sys2Proof.Machine

/-! ### Shapes (R280) -/

/-- LEN of a shape word. -/
def shapeLen (w : Word) : Nat := bits w.toNat 9 0
/-- ROWS of a shape word. -/
def shapeRows (w : Word) : Nat := bits w.toNat 19 10
/-- The destination stride in bytes. -/
def shapeDstr (w : Word) : Int := 64 * signed 22 (bits w.toNat 41 20)
/-- The source stride in bytes. -/
def shapeSstr (w : Word) : Int := 64 * signed 22 (bits w.toNat 63 42)

/-- Are the limits of a shape kept? -/
def shapeOk (w : Word) : Bool :=
  decide (shapeLen w * shapeRows w ≤ 512) && decide (shapeRows w ≤ 512) && decide (shapeLen w ≤ 512)

/-- The rows of one end, as offsets from BASE and lengths. -/
def shapeEnds (w : Word) (off : Nat) (stride : Int) : List (Int × Nat) :=
  if shapeLen w = 0 then []
  else (List.range (shapeRows w)).map (fun (r : Nat) => ((off : Int) + stride * r, 64 * shapeLen w))

/-- The chunks of `n` bytes (R280). -/
def chunkCount (n : Nat) : Nat := ceilDiv n 512

/-! ### The bytes of a copy -/

/-- The flat address of byte `n` of one end of a copy, in row order. -/
def endByte (e : CopyEnd) (len n : Nat) : Nat := ((e.adr : Int) + e.stride * (n / (64 * len) : Nat)).toNat + n % (64 * len)

/-- The byte ranges of one end. -/
def endRanges (e : CopyEnd) (rows len : Nat) : List (Nat × Nat) :=
  (List.range rows).map (fun r => (((e.adr : Int) + e.stride * (r : Nat)).toNat, 64 * len))

/-- The length of the block that a command's B or A names (R333 to R340). -/
def cmdBlockLen (c : Cmd) : Nat :=
  match c.kind with
  | .sqopen => 64
  | .sqchk => 8 * bits c.c.toNat 38 32
  | .sqacc => 128
  | .kvexport => 512
  | .pfxlook => 128 * bits c.c.toNat 6 0
  | .pfxins => 128
  | .stConfigure => 64
  | _ => 0

/-- The byte ranges of a command's blocks and its reply word (R332). -/
def cmdRanges (c : Cmd) : List (Nat × Nat) :=
  let own := if cmdBlockLen c = 0 then [] else [(c.block, cmdBlockLen c)]
  let second := if c.kind = .sqaccAssist ∧ c.d ≠ 0 then [(c.block2, 128)] else []
  let reply := match c.reply with
    | some a => [(a, 8)]
    | none => []
  own ++ second ++ reply

/-- The byte ranges that a job reads and writes on this package. -/
def jobRanges (k : JobKind) : List (Nat × Nat) :=
  match k with
  | .copy src dst rows len _ _ => endRanges src rows len ++ endRanges dst rows len
  | .pxfer src _ _ len _ => [(src.adr, 64 * len)]
  | .cmd c => cmdRanges c

/-- The accesses of a core in flight that overlap a job, which come before its events (R104). -/
def jobAfter (s : State) (who : Agent) (k : JobKind) : List Nat :=
  (s.acc.filter (fun x => decide (x.who = who) && x.all.any (fun p => (jobRanges k).any (rangesMeet p)))).map (fun x => x.id)

/-- Every chunk of a job, as a mask. -/
def chunkMask (j : Job) : Word := word (2 ^ j.chunks - 1)

/-- Has every chunk landed or failed? -/
def jobDone (j : Job) : Bool := decide (j.landed ||| j.failed = chunkMask j)

/-! ### Tokens (R284, R286) -/

/-- Write a token register and release it, when its task still runs on the core. -/
def releaseToken (s : State) (who : Agent) (num : BitVec 32) (tok born : Nat) (x : Word) : State :=
  if tok ≠ 0 ∧ stillThere s who num then landDue s who born 10 (.scalar tok x) none else s

/-- A WAITC that waits for a token learns of the chunks that failed when it is released (R285, R286). -/
def tellWaiter (s : State) (j : Job) : State :=
  if j.tok ≠ 0 ∧ stillThere s j.who j.num ∧ (getCore s j.who).task.waitTok = some j.tok then
    modTaskOf s j.who (fun t => { t with tokFail := j.causes })
  else s

/-- A job is finished: it leaves, and its token is released holding the landed bits. -/
def endJob (s : State) (j : Job) : State :=
  releaseToken (tellWaiter (sweepFreeing { s with jobs := s.jobs.filter (fun k => k.id ≠ j.id) }) j) j.who j.num j.tok j.born j.landed

/-- Put back a job. -/
def putJob (s : State) (j : Job) : State := { s with jobs := s.jobs.map (fun k => if k.id = j.id then j else k) }

/-- The up link that goes to a chip, if any: the lowest numbered (R387). -/
def linkTo (s : State) (chip : BitVec 4) : Option Nat :=
  (List.range 16).find? (fun i => (s.pkg.links.getD i ⟨false, 0⟩).up && decide ((s.pkg.links.getD i ⟨false, 0⟩).peer = chip))

/-- A job of the bundle that acts; a peer transfer takes its link as it leaves (R387) (DEDUCED, log 115). -/
def mkJob (s : State) (tok : Nat) (k : JobKind) (chunks : Nat) (waiting : Bool) : Job :=
  let t := curTask s
  { id := s.nextId, who := s.cur, num := t.num, tok := tok, born := t.issued, kind := k, chunks := chunks, landed := 0,
    failed := 0, causes := [], waiting := waiting, after := if waiting then [] else jobAfter s s.cur k,
    link := match k with | .pxfer _ chip _ _ _ => linkTo s chip | .copy _ _ _ _ _ _ => none | .cmd _ => none }

/-- Start a job: its token is cleared and pending from here (R281). -/
def startJob (s : State) (j : Job) : State :=
  pushScalar { s with jobs := s.jobs ++ [j], nextId := s.nextId + 1 } 1 10 j.tok 0

/-- After its last chunk a copy without a failed chunk writes its completion word, a triggering write (DEDUCED, log 142), and its token
is released (R107, R281, R286). A word at an unreachable home is lost (DEDUCED, log 124). -/
def completeCopy (s : State) (j : Job) (w : Option CopyEnd) : State :=
  match w with
  | some e => endJob (if j.failed = 0 ∧ lostAt s e.adr = false then storeTrig s e.adr (leBytes 8 (chunkMask j).toNat) else s) j
  | none => endJob s j

/-- The same for a copy of no chunks at its issue. -/
def settleEmpty (s : State) (j : Job) : State :=
  match j.kind with
  | .copy _ _ _ _ w _ => if j.chunks = 0 then completeCopy s j w else s
  | .pxfer _ _ _ _ none => if j.chunks = 0 then endJob s j else s
  | .pxfer _ _ _ _ (some _) => s
  | .cmd _ => s

/-! ### CPY and CPYT (R281 to R283) -/

/-- The timed copies in a core's front end (R283); those of a saved task have left it (R111). -/
def frontEnd (s : State) (who : Agent) : Nat :=
  (s.jobs.filter (fun j => decide (j.who = who) && j.waiting && (mapGet? s.tasks j.num.toNat).isNone)).length

/-- The checks of a copy at its bundle, in the order of R282; the two ends and the completion word. -/
def checkCopy (s : State) (f : CmdF) (w : Bool) : Except FaultInfo (CopyEnd × CopyEnd × Option CopyEnd) :=
  let t := curTask s
  let a := scalarIn t f.a
  let b := scalarIn t f.b
  let c := scalarIn t f.c
  let d := scalarIn t f.d
  let sp := (recReg t (endRec d)).space
  if shapeOk c = false ∨ endOk t a = false ∨ endOk t b = false ∨ (w = true ∧ (endOk t d = false ∨ 2 ≤ sp)) then
    .error (bundleFault s .illegalOperand 10)
  else if w = true ∧ sp = 0 ∧ isSup s.cur = true then .error (bundleFault s .featureAbsent 10)
  else
    match checkEnd s 10 .load 64 a (shapeEnds c (endOff a) (shapeSstr c)) with
    | .error x => .error x
    | .ok src =>
      match checkEnd s 10 .store 64 b (shapeEnds c (endOff b) (shapeDstr c)) with
      | .error x => .error x
      | .ok dst =>
        if w then
          match checkEnd s 10 .store 8 d [((endOff d : Nat), 8)] with
          | .error x => .error x
          | .ok e => .ok ({ src with stride := shapeSstr c }, { dst with stride := shapeDstr c }, some e)
        else .ok ({ src with stride := shapeSstr c }, { dst with stride := shapeDstr c }, none)

/-- A copy at its bundle: `time` is its issue time, `w` says that it names a completion word. -/
def startCopy (f : CmdF) (w : Bool) (time : Word) (s : State) : Act :=
  let t := curTask s
  let ends := [scalarIn t f.a, scalarIn t f.b] ++ (if w then [scalarIn t f.d] else [])
  let late := decide (s.pkg.cyc.toNat < time.toNat)
  if ends.any (endPending s) then .stall
  else
    match ends.findSome? (fun e => endPoison s e 10) with
    | some x => .trap x
    | none =>
      match checkCopy s f w with
      | .error x => .trap x
      | .ok (src, dst, e) =>
        if late ∧ 32 ≤ frontEnd s s.cur then .stall
        else
          let c := scalarIn t f.c
          let j := mkJob s f.tok.toNat (.copy src dst (shapeRows c) (shapeLen c) e time)
            (chunkCount (64 * shapeLen c * shapeRows c)) late
          let s1 := startJob s j
          .done (if late then s1 else settleEmpty s1 j)

/-- CPY (R281). -/
def sylCpy (f : CmdF) (s : State) : Act := startCopy f (f.x.getLsbD 0) 0 s

/-- CPY with its gate. -/
def execCpy (h : Head) (f : CmdF) (s : State) : Host.Outcome State Fault Refusal :=
  runGated (.cpy h f) (sylCpy f) s

/-- CPYT (R281). -/
def sylCpyt (f : CmdF) (s : State) : Act := startCopy f false (scalarIn (curTask s) f.d) s

/-- CPYT with its gate. -/
def execCpyt (h : Head) (f : CmdF) (s : State) : Host.Outcome State Fault Refusal :=
  runGated (.cpyt h f) (sylCpyt f) s

/-- Why an end of a timed copy fails the check at its issue (R283). -/
def endStale (e : CopyEnd) : Option FCode :=
  if e.recBits.revoked then some .rights
  else
    match e.hnd with
    | some (_, h) => if h.valid then none else some .handleStale
    | none => none

/-- Cancel a job: every chunk fails and its token is released (R283, R286). -/
def cancelJob (s : State) (j : Job) (c : FCode) (adr : Word) : State :=
  endJob s { j with
    failed := chunkMask j, landed := 0, causes := (List.range j.chunks).map (fun i => (i, c, adr)) }

/-- Is the task of a job saved, so that its timed copies wait with it (R111)? -/
def savedTask (s : State) (num : BitVec 32) : Bool := (mapGet? s.tasks num.toNat).isSome

/-- COPY_ISSUE (R283): a timed copy leaves the front end when CYC reaches its time, checked again. -/
def execCopyIssue (job : Nat) (s : State) : Host.Outcome State Fault Refusal :=
  match s.jobs.find? (fun j => j.id = job && j.waiting) with
  | none => .next s
  | some j =>
    match j.kind with
    | .copy src dst _ _ _ time =>
      if s.pkg.cyc.toNat < time.toNat ∨ savedTask s j.num then .next s
      else
        match endStale src, endStale dst with
        | some c, _ => .next (cancelJob s j c (endFadr src src.adr))
        | none, some c => .next (cancelJob s j c (endFadr dst dst.adr))
        | none, none =>
          let k := { j with waiting := false, after := jobAfter s j.who j.kind }
          .next (settleEmpty (putJob s k) k)
    | .pxfer _ _ _ _ _ => .next s
    | .cmd _ => .next s

/-! ### Chunks (R104, R286, R288) -/

/-- The 64-byte lines of chunk `i` of `total` bytes, as byte numbers. -/
def chunkLines (total i : Nat) : List Nat := (List.range 8).map (fun l => 512 * i + 64 * l) |>.filter (fun n => n < total)

/-- Has everything that must come before a job's events been performed? -/
def jobFree (s : State) (j : Job) : Bool := !j.waiting && !s.acc.any (fun x => j.after.contains x.id)

/-- A chunk fails. -/
def failChunk (j : Job) (i : Nat) (c : FCode) (adr : Word) : Job :=
  { j with failed := j.failed ||| (1#64 <<< i), causes := j.causes ++ [(i, c, adr)] }

/-- A chunk lands (DESIGN CHOICE, log 29). -/
def landChunk (j : Job) (i : Nat) : Job := { j with landed := j.landed ||| (1#64 <<< i) }

/-- Is the last chunk of a transfer written at the receiver, and its landed bit held back for the flag (R388)? -/
def lastKept (j : Job) : Bool :=
  (match j.kind with
   | .pxfer _ _ _ _ _ => true
   | .copy _ _ _ _ _ _ => false
   | .cmd _ => false) && j.parts.any (fun p => decide (p.chunk + 1 = j.chunks) && !p.put.isEmpty)

/-- Finish a job when its last chunk has landed or failed: a copy with its completion word. The last chunk of a transfer with a flag
lands with the flag (DEDUCED, log 115), or without it where another chunk has failed (R286). -/
def jobAdvance (s : State) (j0 : Job) : State :=
  let lost := lastKept j0 && decide (j0.failed ≠ 0) && decide (j0.landed ||| j0.failed ||| (1#64 <<< (j0.chunks - 1)) = chunkMask j0)
  let j := if lost then { landChunk j0 (j0.chunks - 1) with parts := [] } else j0
  let s1 := putJob s j
  if jobDone j then
    match j.kind with
    | .copy _ _ _ _ w _ => completeCopy s1 j w
    | .pxfer _ _ _ _ none => endJob s1 j
    | .pxfer _ _ _ _ (some _) => if j.failed = 0 then s1 else endJob s1 j
    | .cmd _ => s1
  else s1

/-- What a chunk writes, from the line each destination line takes: the source bytes. Where sources and destinations of the
chunk meet, a free bit says for each line whether it takes them as they were or as this copy's own writes left them, and a
further one in which order the lines are written (R287) (DESIGN CHOICE, log 102). -/
def chunkWrites (s : State) (ls : List (Nat × Nat)) : List (Nat × List Byte) × State :=
  if ls.any (fun x => ls.any (fun y => rangesMeet (x.1, 64) (y.2, 64))) then
    let r := (if Config.freeBit s.free then ls else ls.reverse).foldl (fun (x : State × Nat × List (Nat × List Byte)) l =>
      let v := if Config.freeBit (s.free + x.2.1) then readBytes s l.2 64 else readBytes x.1 l.2 64
      (storeQuiet x.1 l.1 v, x.2.1 + 1, x.2.2 ++ [(l.1, v)])) (s, 1, [])
    (r.2.2, { s with free := s.free + 9 })
  else (ls.map (fun l => (l.1, readBytes s l.2 64)), s)

/-- The first byte among source lines that meets an uncorrectable error (R58, R378). -/
def firstBad (s : State) (lines : List Nat) : Option Nat := lines.findSome? (fun a => firstLost s a 64)

/-- What has been done of a chunk so far. -/
def partOf (j : Job) (i : Nat) : Part := (j.parts.find? (fun p => p.chunk = i)).getD ⟨i, [], [], []⟩

/-- Put back what has been done of a chunk. -/
def setPart (j : Job) (p : Part) : Job := { j with parts := p :: j.parts.filter (fun q => q.chunk ≠ p.chunk) }

/-- The lines of a chunk that have been read. -/
def linesGot (p : Part) : List Nat := p.got.map Prod.fst

/-- One granule of a chunk ahead of the rest (R92): a source line is read; when all have been read, a destination line is written
(R104) (DESIGN CHOICE, log 29). -/
def partCopy (s : State) (j : Job) (src dst : CopyEnd) (rows len i l : Nat) : State :=
  let n := 512 * i + 64 * l
  let lines := chunkLines (64 * len * rows) i
  let p := partOf j i
  let a := endByte src len n
  let b := endByte dst len n
  if !lines.contains n ∨ p.put.contains n then s
  else if lines.any (fun m => !(linesGot p).contains m) then
    if (linesGot p).contains n ∨ pathHeld s j.who a ∨ badRange s a 64 then s
    else putJob s (setPart j { p with got := (n, readBytes s a 64) :: p.got })
  else if pageHeld s b 64 ∨ pathHeld s j.who b ∨ lostAt s b then s
  else
    let r := storeNote s b (((p.got.find? (fun g => g.1 = n)).map Prod.snd).getD [])
    putJob r.1 (setPart j { p with put := n :: p.put, hits := addHits p.hits r.2 })

/-- The rest of a chunk of a copy: what is left of its source is read and of its destination written, line by line; the chunk is
one triggering write. A source line with an uncorrectable error fails the chunk, and so does a destination line on an unreachable
channel (R65, R286). -/
def landCopy (s : State) (j : Job) (src dst : CopyEnd) (rows len i : Nat) (err : DataError) : State :=
  let lines := chunkLines (64 * len * rows) i
  let from' := fun (n : Nat) => endByte src len n
  let p := partOf j i
  let s1 := applyError s (from' (512 * i)) err
  let k := { j with parts := j.parts.filter (fun q => q.chunk ≠ i) }
  let unread := lines.filter (fun n => !(linesGot p).contains n)
  match firstBad s1 (unread.map from') with
  | some a => jobAdvance s1 (failChunk k i .uncorrected (endErrAdr src a))
  | none =>
    match (lines.map (endByte dst len)).find? (lostAt s1) with
    | some a => jobAdvance s1 (failChunk k i .uncorrected (endErrAdr dst a))
    | none =>
    if p.got.isEmpty then
      let w := chunkWrites s1 (lines.map (fun n => (endByte dst len n, from' n)))
      jobAdvance (storeAll w.2 w.1) (landChunk k i)
    else
      let data := fun (n : Nat) => match p.got.find? (fun g => g.1 = n) with
        | some g => g.2
        | none => readBytes s1 (from' n) 64
      let w := (lines.filter (fun n => !p.put.contains n)).map (fun n => (endByte dst len n, data n))
      jobAdvance (storeRest s1 w (lines.map (fun n => (endByte dst len n, 64))) p.hits) (landChunk k i)

/-- Is the link of a job up, and does it still go to its chip? -/
def linkUp (s : State) (j : Job) (chip : BitVec 4) : Bool :=
  match j.link with
  | some i => (s.pkg.links.getD i ⟨false, 0⟩).up && decide ((s.pkg.links.getD i ⟨false, 0⟩).peer = chip)
  | none => false

/-- The chunks that a link has sent and not had acknowledged (R389). -/
def awaited (s : State) (link : Option Nat) : Nat :=
  ((s.jobs.filter (fun j => decide (j.link = link))).map (fun j => (j.parts.filter (fun p => p.put.isEmpty)).length)).sum

/-- May a chunk of a transfer be with its link: it is already, or fewer than 64 are (R389)? -/
def linkOpen (s : State) (j : Job) (i : Nat) : Bool :=
  j.link.isNone || j.parts.any (fun p => decide (p.chunk = i)) || decide (awaited s j.link < 64)

/-- A granule of a chunk of a transfer is read, the chunk being with its link from the first on (R92, R389). -/
def partSend (s : State) (j : Job) (src : CopyEnd) (len i l : Nat) : State :=
  let n := 512 * i + 64 * l
  let p := partOf j i
  let a := src.adr + n
  if !(chunkLines (64 * len) i).contains n ∨ (linesGot p).contains n ∨ lastKept j ∧ i + 1 = j.chunks ∨ linkOpen s j i = false ∨
      pathHeld s j.who a ∨ badRange s a 64 then s
  else putJob s (setPart j { p with got := (n, readBytes s a 64) :: p.got })

/-- The flag of a peer transfer: with it the last chunk lands, or fails where it is refused (R388). -/
def landFlag (s : State) (j : Job) (gs : BitVec 32) (lost : Bool) : State :=
  let last := j.chunks - 1
  if j.chunks = 0 then endJob s j
  else if lost then endJob s (failChunk { j with parts := [] } last .uncorrected (word (gs.toNat + 512 * last)))
  else endJob s (landChunk { j with parts := [] } last)

/-- A chunk of a peer transfer is acknowledged, or fails: `.uncorrectable` is a refusal by the receiver or a loss beyond the retries, as
is the want of a link (R286, R288, R387, R388). -/
def landPeer (s : State) (j : Job) (src : CopyEnd) (chip : BitVec 4) (gs : BitVec 32) (len i : Nat) (flag : Bool) (err : DataError) : State :=
  let lost := decide (err = .uncorrectable) || !linkUp s j chip
  let lines := chunkLines (64 * len) i
  let k := { j with parts := j.parts.filter (fun p => p.chunk ≠ i) }
  let unread := (lines.filter (fun n => !(linesGot (partOf j i)).contains n)).map (fun n => src.adr + n)
  let s1 := if err = .corrected then (match unread with | a :: _ => applyError s a .corrected | [] => s) else s
  match firstBad s1 unread with
  | some a => jobAdvance s1 (failChunk k i .uncorrected (endErrAdr src a))
  | none =>
    if lost then jobAdvance s1 (failChunk k i .uncorrected (word (gs.toNat + 512 * i)))
    else if flag ∧ i + 1 = j.chunks then jobAdvance s1 (setPart j ⟨i, [], lines, []⟩)
    else jobAdvance s1 (landChunk k i)

/-- Is a chunk's destination or source held: a page to be zeroed, or a spire under retirement? -/
def chunkHeld (s : State) (who : Agent) (src dst : CopyEnd) (rows len i : Nat) : Bool :=
  (chunkLines (64 * len * rows) i).any (fun n =>
    pageHeld s (endByte dst len n) 64 || pathHeld s who (endByte dst len n) || pathHeld s who (endByte src len n))

/-- One granule of a chunk of a copy that is still out. -/
def partChunk (s : State) (job chunk line : Nat) : State :=
  match s.jobs.find? (fun j => j.id = job) with
  | none => s
  | some j =>
    match j.kind with
    | .copy src dst rows len _ _ =>
      if jobFree s j = true ∧ chunk < j.chunks ∧ (j.landed ||| j.failed).getLsbD chunk = false then
        partCopy s j src dst rows len chunk line
      else s
    | .pxfer src _ _ len _ =>
      if jobFree s j = true ∧ chunk < j.chunks ∧ (j.landed ||| j.failed).getLsbD chunk = false then partSend s j src len chunk line else s
    | .cmd _ => s

/-- A chunk of a copy or peer transfer that is still out lands or fails (R104); one to an unreachable home fails (DEDUCED, log 124).
The flag of a peer transfer counts as the chunk after the last one. -/
def landAny (s : State) (j : Job) (chunk : Nat) (err : DataError) : State :=
  let out := decide (chunk < j.chunks) && !(j.landed ||| j.failed).getLsbD chunk
  match j.kind with
  | .copy src dst rows len w _ =>
    let wordHeld := match w with
      | some e => pageHeld s e.adr 8 || pathHeld s j.who e.adr
      | none => false
    if out ∧ !chunkHeld s j.who src dst rows len chunk ∧ !wordHeld then landCopy s j src dst rows len chunk err else s
  | .pxfer src chip gs len flag =>
    if flag.isSome ∧ chunk = j.chunks ∧ (j.chunks = 0 ∨ (lastKept j ∧ (j.landed ||| (1#64 <<< (j.chunks - 1))) = chunkMask j)) then
      landFlag s j gs (decide (err = .uncorrectable) || !linkUp s j chip)
    else if out ∧ ¬(lastKept j ∧ chunk + 1 = j.chunks) ∧ linkOpen s j chunk ∧
        !(chunkLines (64 * len) chunk).any (fun n => pathHeld s j.who (src.adr + n)) then
      landPeer s j src chip gs len chunk flag.isSome err
    else s
  | .cmd _ => s

/-- The first failed chunk that a mask covers, in ascending order. -/
def firstFailed (w : Word) (l : List (Nat × FCode × Word)) : Option (Nat × FCode × Word) :=
  (List.range 64).findSome? (fun i => if w.getLsbD i then l.find? (fun c => c.1 = i) else none)

/-- The number in R90 of the check that cancelled a timed copy, which DETAIL holds (R283, R365). -/
def causeCheck (c : FCode) : Nat := if c = .rights then 1 else if c = .handleStale then 6 else 0

/-- A WAITC whose chunks have landed or failed: it faults on the first that failed, or issues. -/
def waitOver (w : Word) (l : List (Nat × FCode × Word)) (s : State) : Act :=
  match firstFailed w l with
  | some c => .trap (mkFault c.2.1 c.2.2 10 (causeCheck c.2.1))
  | none => .done (modTask s (fun t => { t with waitTok := none, tokFail := [] }))

/-- The mask of a WAITC: a pending token register, which WAITC may read, holds the bits of the chunks landed so far (R281, R284). -/
def waitMask (s : State) (f : CmdF) : Word :=
  match (myJobs s s.cur (curTask s).num).find? (fun j => j.tok = f.a.toNat) with
  | some j => j.landed
  | none => scalarIn (curTask s) f.a

/-- WAITC (R285): a token that is not pending lets it issue at once, unless the token was released with failed chunks while
this WAITC waited for it. -/
def sylWaitc (f : CmdF) (s : State) : Act :=
  let t := curTask s
  let a := waitMask s f
  match (myJobs s s.cur t.num).find? (fun j => j.tok = f.tok.toNat) with
  | none => waitOver a (if t.waitTok = some f.tok.toNat then t.tokFail else []) s
  | some j =>
    let w := a &&& chunkMask j
    if (j.landed ||| j.failed) &&& w = w then waitOver w j.causes s else .wait (.token f.tok.toNat)

/-- WAITC with its gate. -/
def execWaitc (h : Head) (f : CmdF) (s : State) : Host.Outcome State Fault Refusal :=
  runGated (.waitc h f) (sylWaitc f) s

/-! ### Peer transfers (R288, R388) -/

/-- Is a table entry in force, by its two words (R388)? -/
def peerEntryOk (w0 w1 : Nat) (landing : Bool) : Bool :=
  bit w0 63 && decide (bits w0 62 60 = 0) && decide (bits w0 43 32 = 0) && decide (bits w1 63 32 = 0) &&
    (!landing || decide (bits w0 59 48 = 0)) && decide (w0 % 64 = 0) && decide (w1 % 64 = 0) &&
    gsValid (bits w0 31 0) && decide (bits w0 31 0 + w1 ≤ gsEnd (bits w0 31 0))

/-- Does an entry of a table at an offset of the control window cover a range for a chip and, for a grant, a context? -/
def peerCovers (s : State) (off : Nat) (ctx : Option Nat) (chip a n : Nat) : Bool :=
  let w0 := windowReg s off
  let w1 := windowReg s (off + 8)
  peerEntryOk w0 w1 ctx.isNone && decide (bits w0 47 44 = chip) &&
    (match ctx with
     | some c => decide (bits w0 59 48 = c)
     | none => true) &&
    decide (bits w0 31 0 ≤ a) && decide (a + n ≤ bits w0 31 0 + w1)

/-- Does a grant of a context let it send a range to a chip? The own chip is never a peer. -/
def granted (s : State) (ctx chip a n : Nat) : Bool :=
  decide (chip ≠ windowReg s 0 % 16) &&
    (List.range 256).any (fun i => peerCovers s (0x2000 + 16 * i) (some ctx) chip a n)

/-- The checks of a peer transfer at its bundle; its source. -/
def checkPeer (s : State) (f : CmdF) : Except FaultInfo CopyEnd :=
  let t := curTask s
  let a := scalarIn t f.a
  let b := (scalarIn t f.b).toNat
  let c := (scalarIn t f.c).toNat
  let d := (scalarIn t f.d).toNat
  let flag := f.x.getLsbD 0
  let chip := bits b 63 60
  let gs := bits b 31 0
  let n := 64 * bits c 9 0
  if endOk t a = false ∨ bits b 59 32 ≠ 0 ∨ 512 < c then .error (bundleFault s .illegalOperand 10)
  else
    match checkEnd s 10 .load 64 a (if n = 0 then [] else [(((endOff a : Nat) : Int), n)]) with
    | .error x => .error x
    | .ok src =>
      if gs % 64 ≠ 0 then .error (mkFault .misaligned (word gs) 10)
      else if flag = true ∧ d % 2 ^ 32 % 8 ≠ 0 then .error (mkFault .misaligned (word (d % 2 ^ 32)) 10)
      else if (if n = 0 then !flag && decide (chip = windowReg s 0 % 16) else !granted s t.ctx.toNat chip gs n) then .error (mkFault .rights (word gs) 10)
      else if flag = true ∧ granted s t.ctx.toNat chip (d % 2 ^ 32) 8 = false then
        .error (mkFault .rights (word (d % 2 ^ 32)) 10)
      else .ok src

/-- PXFER (R288). -/
def sylPxfer (f : CmdF) (s : State) : Act :=
  let t := curTask s
  let a := scalarIn t f.a
  if endPending s a then .stall
  else
    match endPoison s a 10 with
    | some x => .trap x
    | none =>
      match checkPeer s f with
      | .error x => .trap x
      | .ok src =>
        let b := scalarIn t f.b
        let d := (scalarIn t f.d).toNat
        let n := bits (scalarIn t f.c).toNat 9 0
        let flag := if f.x.getLsbD 0 then some (BitVec.ofNat 32 d, BitVec.ofNat 32 (d / 2 ^ 32)) else none
        let j := mkJob s f.tok.toNat (.pxfer src (BitVec.ofNat 4 (bits b.toNat 63 60)) (b.setWidth 32) n flag)
          (chunkCount (64 * n)) false
        .done (settleEmpty (startJob s j) j)

/-- PXFER with its gate. -/
def execPxfer (h : Head) (f : CmdF) (s : State) : Host.Outcome State Fault Refusal :=
  runGated (.pxfer h f) (sylPxfer f) s

/-- PEER_CHUNK_RECEIVE (R388): a chunk or a flag that arrives over an up link is written where a landing entry for the sending
chip covers it, and refused elsewhere; the sender gets the acknowledgement. -/
def execPeerChunkReceive (link : BitVec 4) (adr : BitVec 32) (bytes : List (BitVec 8)) (flag : Bool) (s : State) :
    Host.Outcome State Fault Refusal :=
  let l := s.pkg.links.getD link.toNat ⟨false, 0⟩
  let a := adr.toNat
  let n := bytes.length
  let sized := if flag then decide (n = 8) && decide (a % 8 = 0) else decide (n ≤ 512) && decide (n % 64 = 0) && decide (a % 64 = 0)
  if l.up = false ∨ sized = false ∨ pageHeld s a n then .next s
  else
    let ok := (List.range 64).any (fun i => peerCovers s (0x3000 + 16 * i) none l.peer.toNat a n)
    let s1 := if ok then storeTrig s a bytes else s
    .next { s1 with pkg := { s1.pkg with acks := s1.pkg.acks ++ [⟨link, adr, ok⟩] } }

end Sys2Proof.Machine
end

