-- ==== Sys2Proof/Machine/SeqMem.lean ====
section
/-!
DEFINITION. Sequence memory: request records, page tables, KV pages in TM and CXL, page-in and eviction, images, bindings
(spec 06_sequence_memory.md R113 to R123, 03_tower_memory.md R68 to R71, 08_draft_and_check.md R164, R171).
-/
namespace Sys2Proof.Machine

/-! ### Pool records (R114) -/

/-- A field of a pool record. -/
def poolField (s : State) (t : BitVec 3) (p off hi lo : Nat) : Nat := getField s (poolAdr t p + off) hi lo
/-- The bytes of a KV page of a pool. -/
def poolPage (s : State) (t : BitVec 3) (p : Nat) : Nat := 2 ^ 12 * 2 ^ poolField s t p 0 58 56
/-- The context of a pool. -/
def poolCtx (s : State) (t : BitVec 3) (p : Nat) : Nat := poolField s t p 0 55 44
/-- Is a pool enabled? -/
def poolOn (s : State) (t : BitVec 3) (p : Nat) : Bool := bit (readNat s (poolAdr t p) 8) 63
/-- The pages of a tier. -/
def poolNum (s : State) (t : BitVec 3) (p tier : Nat) : Nat := poolField s t p (if tier = 0 then 0x18 else 0x30) 63 32

/-- The flat address of a page by its BASE in its tier's window. -/
def pageFlat (s : State) (t : BitVec 3) (p tier base : Nat) : Nat :=
  if tier = 0 then tmFlat t.toNat (poolField s t p 0x10 35 0 + base * 4096) else cxlFlat (poolField s t p 0x28 41 0 + base * 4096)

/-- The key of a page by its BASE. -/
def pageKeyOf (s : State) (t : BitVec 3) (p tier base : Nat) : Nat :=
  pageKey t p tier (base * 4096 / poolPage s t p)

/-- The first number from `n` on that is not in a rising list. -/
def firstGap : Nat → List Nat → Nat
  | n, [] => n
  | n, x :: l => if x < n then firstGap n l else if x = n then firstGap (n + 1) l else n

/-- The lowest free page of a tier, if any: its index. -/
def freePageIdx (s : State) (t : BitVec 3) (p tier : Nat) : Option Nat :=
  let k := pageKey t p tier 0
  let i := firstGap k s.pages - k
  if poolOn s t p ∧ i < poolNum s t p tier then some i else none

/-- Allocate the lowest free page of a tier to the pool's context: its BASE (R25, R119). -/
def allocPage (s0 : State) (t : BitVec 3) (p tier : Nat) : Option (Nat × State) :=
  let s := sweepFreeing s0
  match freePageIdx s t p tier with
  | none => none
  | some i =>
    let n := poolPage s t p
    let base := i * (n / 4096)
    let key := pageKey t p tier i
    let s1 := bumpFree { s with pages := insertNat key s.pages } key false
    some (base, allocZero s1 (pageFlat s t p tier base) n true (BitVec.ofNat 12 (poolCtx s t p)))

/-- The accesses and jobs in flight that touch a range. -/
def usersOf (s : State) (a n : Nat) : List Nat :=
  (s.acc.filter (fun x => x.all.any (rangesMeet (a, n)))).map (fun x => x.id) ++
    (s.jobs.filter (fun j => (jobRanges j.kind).any (rangesMeet (a, n)))).map (fun j => j.id)

/-- The bus epochs that still have a slice to read in a range (R38, R313): what a MCFG asks its bus to read counts as issued with it. -/
def busUsers (s : State) (a n : Nat) : List Nat :=
  ((busEpochs s).filter (fun e =>
    ((List.range e.2.total).drop e.1).any (fun j => rangesMeet (a, n) ((e.2.sliceAdr j).1, 256)))).map (fun e => e.2.stamp)

/-- All that was issued to a range and is still to be performed there. -/
def issuedTo (s : State) (a n : Nat) : List Nat := usersOf s a n ++ busUsers s a n

/-- Must an allocation wait, because accesses issued while the object had another owner are still in flight there (R28)? -/
def allocHeld (s : State) (base len : Nat) (ctx : BitVec 12) : Bool :=
  !lastOwned s base len ctx && !(issuedTo s base len).isEmpty

/-- Free a page by its key: it returns to its pool when the accesses issued to it have been performed (R119). -/
def freePage (s : State) (t : BitVec 3) (p tier base : Nat) : State :=
  let key := pageKeyOf s t p tier base
  if s.pages.contains key then
    sweepFreeing { s with freeing := s.freeing ++ [(key, issuedTo s (pageFlat s t p tier base) (poolPage s t p))] }
  else s

/-- The granules of a range that a copy cannot deliver: those in uncorrectable error (R378), all of them on an unreachable channel
(R65). -/
def lostGranules (s : State) (src n : Nat) : List Nat :=
  if lostAt s src then (List.range (n / 8)).map (fun i => src / 8 + i)
  else s.bad.filter (fun g => decide (src ≤ g * 8) && decide (g * 8 < src + n))

/-- Copy a range by the device itself: cells and granules in error alike; it triggers nothing (R190). Nothing reaches an unreachable
channel, and what stands there arrives in error (R65). -/
def copyRaw (s : State) (src dst n : Nat) : State :=
  if lostAt s dst then s else
  let from' := (if lostAt s src then [] else s.mem.filter (fun c => decide (src ≤ c.1) && decide (c.1 < src + n))).map
    (fun (c : Host.Cell) => (c.1 - src + dst, c.2))
  let s1 := { s with
    mem := cellsClear s.mem dst n
    zero := clearPending s.zero dst n
    bad := s.bad.filter (fun g => !(decide (dst ≤ g * 8) && decide (g * 8 < dst + n))) }
  let s2 := { s1 with mem := from'.foldl (fun (m : List Host.Cell) (c : Host.Cell) => cellSet m c.1 c.2) s1.mem }
  { s2 with
    bad := ((lostGranules s src n).map (fun g => g + dst / 8 - src / 8)).foldl (fun l g => insertNat g l) s2.bad }

/-! ### Request records (R116, R164) -/

/-- A field of a request record. -/
def reqField (s : State) (t : BitVec 3) (n off hi lo : Nat) : Nat := getField s (reqAdr t n + off) hi lo
/-- Replace a field of a request record. -/
def setReq (s : State) (t : BitVec 3) (n off hi lo v : Nat) : State := putField s (reqAdr t n + off) hi lo v
/-- EN. -/
def reqOpen (s : State) (t : BitVec 3) (n : Nat) : Bool := decide (reqField s t n 0 63 63 = 1)
/-- WIN. -/
def reqWin (s : State) (t : BitVec 3) (n : Nat) : Bool := decide (reqField s t n 0 62 62 = 1)
/-- CTX. -/
def reqCtx (s : State) (t : BitVec 3) (n : Nat) : Nat := reqField s t n 0 61 50
/-- POOL. -/
def reqPool (s : State) (t : BitVec 3) (n : Nat) : Nat := reqField s t n 0 33 28
/-- TLEN. -/
def reqTlen (s : State) (t : BitVec 3) (n : Nat) : Nat := reqField s t n 8 63 32
/-- LEN. -/
def reqLen (s : State) (t : BitVec 3) (n : Nat) : Nat := reqField s t n 8 31 0
/-- NPAGES. -/
def reqPages (s : State) (t : BitVec 3) (n : Nat) : Nat := reqField s t n 0x10 63 48
/-- SINKS. -/
def reqSinks (s : State) (t : BitVec 3) (n : Nat) : Nat := reqField s t n 0x10 47 44
/-- WPAGES. -/
def reqRing (s : State) (t : BitVec 3) (n : Nat) : Nat := reqField s t n 0x10 43 38
/-- HEAD. -/
def reqHead (s : State) (t : BitVec 3) (n : Nat) : Nat := reqField s t n 0x10 31 0
/-- STEP. -/
def reqStep (s : State) (t : BitVec 3) (n : Nat) : Nat := reqField s t n 0x20 31 0

/-- The logical pages of a request: those that hold a position (R118). -/
def reqTop (s : State) (t : BitVec 3) (n : Nat) : Nat := ceilDiv (reqTlen s t n) 16

/-- The entry of a logical page (R116, R122). -/
def entryOf (s : State) (t : BitVec 3) (n p : Nat) : Nat :=
  if reqWin s t n then
    let k := reqSinks s t n
    if p < k then p else k + (p - k) % reqRing s t n
  else p

/-- A block index of the record's map; 0xFFFF is none. -/
def blockOf (s : State) (t : BitVec 3) (n i : Nat) : Nat := readNat s (reqAdr t n + 0x80 + 2 * i) 2

/-- The flat address of an entry, where its block exists. -/
def entryAdr (s : State) (t : BitVec 3) (n e : Nat) : Option Nat :=
  let b := blockOf s t n (e / 64)
  if b = 0xFFFF then none else some (blockAdr t b + e % 64 * 8)

/-- An entry's word; 0 where there is none. -/
def entryGet (s : State) (t : BitVec 3) (n e : Nat) : Nat :=
  match entryAdr s t n e with
  | some a => readNat s a 8
  | none => 0

/-- Write an entry. -/
def entrySet (s : State) (t : BitVec 3) (n e v : Nat) : State :=
  match entryAdr s t n e with
  | some a => writeNat s a 8 v
  | none => s

/-- The entry of a logical page. -/
def pageGet (s : State) (t : BitVec 3) (n p : Nat) : Nat := entryGet s t n (entryOf s t n p)
/-- Write the entry of a logical page. -/
def pageSet (s : State) (t : BitVec 3) (n p v : Nat) : State := entrySet s t n (entryOf s t n p) v

/-- V. -/
def entV (x : Nat) : Bool := bit x 63
/-- TIER. -/
def entTier (x : Nat) : Nat := bits x 62 62
/-- TENT. -/
def entTent (x : Nat) : Bool := bit x 61
/-- SINK. -/
def entSink (x : Nat) : Bool := bit x 60
/-- SHR. -/
def entShr (x : Nat) : Bool := bit x 59
/-- PGIN. -/
def entPgin (x : Nat) : Bool := bit x 58
/-- EVIC. -/
def entEvic (x : Nat) : Bool := bit x 57
/-- PIN. -/
def entPin (x : Nat) : Nat := bits x 56 49
/-- BASE. -/
def entBase (x : Nat) : Nat := bits x 45 16

/-- The low 16 bits of the frame number, as LAST holds them. -/
def frameLast (s : State) : Nat := s.pkg.frame.toNat % 2 ^ 16

/-- The logical pages of a request with live entries, in order (R118, R122). -/
def livePages (s : State) (t : BitVec 3) (n : Nat) : List Nat :=
  let top := reqTop s t n
  let k := min (reqSinks s t n) top
  let lo := max (reqHead s t n) k
  ((List.range k) ++ (List.range (top - lo)).map (fun i => lo + i)).filter (fun p => entV (pageGet s t n p))

/-- NPAGES kept as the number of live entries (DEDUCED, log 31). -/
def countPages (s : State) (t : BitVec 3) (n : Nat) : State := setReq s t n 0x10 63 48 (livePages s t n).length

/-- Take the lowest free page-table block of a tower, cleared. -/
def takeBlock (s : State) (t : BitVec 3) : Option (Nat × State) :=
  let k := t.toNat * 11776
  let i := firstGap k s.blocks - k
  if i < 11776 then
    some (i, { s with blocks := insertNat (k + i) s.blocks, mem := cellsClear s.mem (blockAdr t i) 0x200 })
  else none

/-- Set a block index of a record's map. -/
def setBlock (s : State) (t : BitVec 3) (n i b : Nat) : State := writeNat s (reqAdr t n + 0x80 + 2 * i) 2 b

/-- The blocks that a record holds. -/
def blocksOf (s : State) (t : BitVec 3) (n : Nat) : List Nat :=
  (List.range 64).map (blockOf s t n) |>.filter (fun b => b ≠ 0xFFFF)

/-- Free a record and its blocks: it holds its reset contents again (R116, R335). -/
def dropRecord (s : State) (t : BitVec 3) (n : Nat) : State :=
  let bs := (blocksOf s t n).map (fun b => t.toNat * 11776 + b)
  { s with
    blocks := s.blocks.filter (fun b => !bs.contains b)
    mem := cellsClear s.mem (reqAdr t n) 0x400 }

/-- The lowest free record of a tower. -/
def freeRecord (s : State) (t : BitVec 3) : Option Nat := (List.range 2048).find? (fun n => !reqOpen s t n)

/-! ### Bindings and images (R121, R171) -/

/-- Bind a task to a request. -/
def bindReq (s : State) (t : BitVec 3) (n : Nat) (num : BitVec 32) : State :=
  if s.binds.contains ⟨t, n, num⟩ then s else { s with binds := s.binds ++ [⟨t, n, num⟩] }

/-- Is a task other than one bound to a request? -/
def boundOther (s : State) (t : BitVec 3) (n : Nat) (num : BitVec 32) : Bool :=
  s.binds.any (fun b => decide (b.tower = t) && decide (b.req = n) && decide (b.num ≠ num))

/-- Is a request bound to a PLACED or READY task? -/
def boundLive (s : State) (t : BitVec 3) (n : Nat) : Bool :=
  s.binds.any (fun b => decide (b.tower = t) && decide (b.req = n) &&
    (match findTask s b.num with
     | some k => decide (k.status ≠ .suspended)
     | none => false))

/-- End every binding and registration of a request. -/
def unbindReq (s : State) (t : BitVec 3) (n : Nat) : State :=
  { s with
    binds := s.binds.filter (fun b => !(decide (b.tower = t) && decide (b.req = n)))
    images := s.images.filter (fun i => !(decide (i.tower = t) && decide (i.req = n))) }

/-- Free the pages of merged insertions whose request is bound to no PLACED or READY task (R129). -/
def sweepMerged (s : State) : State :=
  if s.merged.isEmpty then s
  else
    let due := s.merged.filter (fun m => !boundLive s m.1 m.2.1)
    let s1 := { s with merged := s.merged.filter (fun m => boundLive s m.1 m.2.1) }
    due.foldl (fun s m =>
      let q := m.2.2 / 2 ^ 32
      let t := BitVec.ofNat 3 (q / 128)
      freePage s t (q / 2 % 64) (q % 2) (m.2.2 % 2 ^ 32 * (poolPage s t (q / 2 % 64) / 4096))) s1

/-- End every binding and image registration of a task (R121, R262). -/
def unbindTask (s : State) (num : BitVec 32) : State :=
  sweepMerged { s with
    binds := s.binds.filter (fun b => b.num ≠ num)
    images := s.images.filter (fun i => i.num ≠ num) }

/-- The word of an image that holds a logical page, if any (R120). -/
def imageIndex (i : ImageReg) (p : Nat) : Option Nat :=
  if p < i.sinks then some (p + 1)
  else if i.first ≤ p ∧ p - i.first + i.sinks < i.count then some (p - i.first + i.sinks + 1)
  else none

/-- Rewrite the word of a logical page in every registered image that holds it (R121). -/
def rewriteImages (s : State) (t : BitVec 3) (n p : Nat) : State :=
  let x := pageGet s t n p
  s.images.foldl (fun s i =>
    if i.tower = t ∧ i.req = n then
      match imageIndex i p with
      | some w => storeQuiet s (i.adr + 8 * w) (leBytes 8 x)
      | none => s
    else s) s

/-! ### Prefix entries that hold pages (R126) -/

/-- The valid prefix entries of a tower. Only a listed cell can make STATE valid. -/
def pfxValid (s : State) (t : BitVec 3) : List Nat :=
  let a := pfxAdr t 0
  s.mem.filterMap (fun c =>
    if a ≤ c.1 ∧ c.1 < a + 0x100000 ∧ (c.1 - a) % 0x80 = 15 ∧ c.2.toNat / 64 = 1 then some ((c.1 - a) / 0x80) else none)

/-- A field of a prefix entry. -/
def pfxField (s : State) (t : BitVec 3) (e off hi lo : Nat) : Nat := getField s (pfxAdr t e + off) hi lo
/-- Replace a field of a prefix entry. -/
def setPfx (s : State) (t : BitVec 3) (e off hi lo v : Nat) : State := putField s (pfxAdr t e + off) hi lo v

/-- Does a prefix entry hold the page of a pool with a tier and a base? -/
def pfxHolds (s : State) (t : BitVec 3) (pool tier base e : Nat) : Bool :=
  let x := readNat s (pfxAdr t e + 0x18) 8
  decide (pfxField s t e 0x20 5 0 = pool) && decide (entTier x = tier) && decide (entBase x = base)

/-- Take 1 from REF of the index entry that holds a page (R119). -/
def dropShare (s : State) (t : BitVec 3) (pool : Nat) (x : Nat) : State :=
  match (pfxValid s t).find? (pfxHolds s t pool (entTier x) (entBase x)) with
  | some e => setPfx s t e 0x10 47 32 (pfxField s t e 0x10 47 32 - 1)
  | none => s

/-! ### Clearing an entry (R69, R119) -/

/-- Paging that works on a logical page of a request. -/
def pagingOf (t : BitVec 3) (r : PageRef) (l : List Paging) : Option Paging :=
  l.find? (fun g => decide (g.tower = t) && decide (g.ref = r) && g.live)

/-- The paging of a page goes on without its entry. -/
def orphan (t : BitVec 3) (r : PageRef) (l : List Paging) : List Paging :=
  l.map (fun g => if g.tower = t ∧ g.ref = r ∧ g.live = true then { g with live := false } else g)

/-- Clear a logical page's entry and free what it held: a shared page gives back its share, a page under paging is freed when
its copy ends, another page goes to its pool (R69, R119, R123). -/
def clearPage (s : State) (t : BitVec 3) (n p : Nat) : State :=
  let x := pageGet s t n p
  let pool := reqPool s t n
  let s1 := pageSet s t n p 0
  if entShr x then dropShare s1 t pool x
  else if entPgin x then { s1 with pageIns := orphan t (.request n p) s1.pageIns }
  else if entEvic x ∧ (pagingOf t (.request n p) s1.evicts).isSome then { s1 with evicts := orphan t (.request n p) s1.evicts }
  else freePage s1 t pool (entTier x) (entBase x)

/-! ### Eviction (R70, R71) -/

/-- Is a TM range the source or the target of a copy or peer transfer in flight? -/
def copyTouches (s : State) (a n : Nat) : Bool := s.jobs.any (fun j => (jobRanges j.kind).any (rangesMeet (a, n)))

/-- May a request's logical page be a victim (R70)? -/
def evictable (s : State) (t : BitVec 3) (n p : Nat) : Bool :=
  let x := pageGet s t n p
  let pool := reqPool s t n
  entV x && decide (entTier x = 0) && !entPgin x && !entEvic x && decide (entPin x = 0) && !entSink x && !entTent x && !entShr x &&
    decide (p + 1 ≠ reqTop s t n) && !boundLive s t n && !copyTouches s (pageFlat s t pool 0 (entBase x)) (poolPage s t pool)

/-- May a prefix entry's page be a victim: unshared and unpinned (R70, R130)? -/
def evictableIndex (s : State) (t : BitVec 3) (e : Nat) : Bool :=
  let x := readNat s (pfxAdr t e + 0x18) 8
  let pool := pfxField s t e 0x20 5 0
  decide (pfxField s t e 0x10 63 48 = 0) && decide (pfxField s t e 0x10 47 32 = 0) && decide (entTier x = 0) && !entPgin x &&
    !entEvic x && !copyTouches s (pageFlat s t pool 0 (entBase x)) (poolPage s t pool)

/-- The victims of a pool with their ages and bases. -/
def candidates (s : State) (t : BitVec 3) (pool : Nat) : List (PageRef × Nat × Nat) :=
  let age := fun (x : Nat) => (frameLast s + 2 ^ 16 - x % 2 ^ 16) % 2 ^ 16
  ((reqsOn s t).filter (fun n => reqPool s t n = pool)).flatMap (fun n =>
      ((livePages s t n).filter (evictable s t n)).map (fun p =>
        let x := pageGet s t n p
        (PageRef.request n p, age x, entBase x))) ++
    ((pfxValid s t).filter (fun e => pfxField s t e 0x20 5 0 = pool && evictableIndex s t e)).map (fun e =>
      let x := readNat s (pfxAdr t e + 0x18) 8
      (PageRef.index e, age x, entBase x))

/-- The least recently touched of some victims, ties to the lowest address (R70). -/
def bestVictim : List (PageRef × Nat × Nat) → Option (PageRef × Nat × Nat)
  | [] => none
  | x :: l =>
    match bestVictim l with
    | none => some x
    | some y => if y.2.1 < x.2.1 ∨ (y.2.1 = x.2.1 ∧ x.2.2 < y.2.2) then some x else some y

/-- The entry word that a reference names. -/
def refGet (s : State) (t : BitVec 3) (r : PageRef) : Nat :=
  match r with
  | .request n p => pageGet s t n p
  | .index e => readNat s (pfxAdr t e + 0x18) 8

/-- Write the entry word that a reference names. -/
def refSet (s : State) (t : BitVec 3) (r : PageRef) (v : Nat) : State :=
  match r with
  | .request n p => pageSet s t n p v
  | .index e => writeNat s (pfxAdr t e + 0x18) 8 v

/-- Post KV_TIER_FULL for a pool (R71): once, until an eviction begins there again (DEDUCED, log 134). -/
def postTierFull (s : State) (t : BitVec 3) (pool : Nat) : State :=
  if s.evWait.contains (t, pool) then s
  else postEvent { s with evWait := s.evWait ++ [(t, pool)] } t 0x47 (word pool) 0 0 0xFF

/-- Is KV page allocation of a tower assisted (R69, R379)? -/
def kvAssisted (s : State) (t : BitVec 3) : Bool := (getTower s t).fmr.getLsbD 2

/-- Begin one eviction in a pool, where a victim and a CXL page exist (R71). In assisted mode the device begins none (log
30). -/
def startEvict (s : State) (t : BitVec 3) (pool : Nat) (assisted : Bool) : State :=
  if assisted then s
  else
    match bestVictim (candidates s t pool) with
    | none => s
    | some (r, _, base) =>
      match allocPage s t pool 1 with
      | none => postTierFull s t pool
      | some (new, s1) =>
        let g : Paging := ⟨s1.nextId, t, pool, r, base, some new, [], true, false, []⟩
        refSet { s1 with
          evicts := s1.evicts ++ [g], nextId := s1.nextId + 1
          evWait := s1.evWait.filter (fun x => x ≠ (t, pool)) } t r (setBits (refGet s1 t r) 57 57 1)

/-- Begin evictions until a pool has `k` TM pages free or on their way (DEDUCED, log 30). -/
def evictFor (s : State) (t : BitVec 3) (pool k : Nat) (assisted : Bool) : Nat → State
  | 0 => s
  | fuel + 1 =>
    let free := poolField s t pool 0x18 31 0
    let coming := (s.evicts.filter (fun g => decide (g.tower = t) && decide (g.pool = pool))).length +
      (s.freeing.filter (fun f => decide (f.1 / 2 ^ 32 = (t.toNat * 64 + pool) * 2))).length
    if k ≤ free + coming then s
    else
      let s1 := startEvict s t pool assisted
      if s1.evicts.length = s.evicts.length then s1 else evictFor s1 t pool k assisted fuel

/-- Is a granule of a range held by the retirement of a spire (R65)? -/
def rangeHeld (s : State) (a n : Nat) : Bool := (List.range (ceilDiv n 64)).any (fun i => spireHeld s (a + 64 * i))

/-- The source and the target of the copy of an eviction or page-in that has its page. -/
def pagingEnds (s : State) (g : Paging) (out : Bool) (new : Nat) : Nat × Nat :=
  if out then (pageFlat s g.tower g.pool 0 g.old, pageFlat s g.tower g.pool 1 new)
  else (pageFlat s g.tower g.pool 1 g.old, pageFlat s g.tower g.pool 0 new)

/-- What is left of the copy of an eviction or page-in. -/
def copyRest (s : State) (g : Paging) (e : Nat × Nat) : State :=
  let n := poolPage s g.tower g.pool
  if g.copied = [] then copyRaw s e.1 e.2 n
  else ((List.range (n / 64)).filter (fun i => !g.copied.contains i)).foldl (fun s i => copyRaw s (e.1 + 64 * i) (e.2 + 64 * i) 64) s

/-- One granule of the copy of an eviction or page-in lands ahead of the rest (R71). -/
def pagePart (k line : Nat) (s : State) : State :=
  let part := fun (out : Bool) (g : Paging) =>
    match g.new with
    | none => none
    | some new =>
      let e := pagingEnds s g out new
      if poolPage s g.tower g.pool ≤ 64 * line ∨ g.copied.contains line ∨ spireHeld s (e.1 + 64 * line) ∨
          spireHeld s (e.2 + 64 * line) then none
      else some (copyRaw s (e.1 + 64 * line) (e.2 + 64 * line) 64)
  let mark := fun (l : List Paging) => l.map (fun g => if g.id = k then { g with copied := line :: g.copied } else g)
  match s.evicts.find? (fun g => g.id = k), s.pageIns.find? (fun g => g.id = k) with
  | some g, _ => ((part true g).map (fun (u : State) => { u with evicts := mark u.evicts })).getD s
  | none, some g => ((part false g).map (fun (u : State) => { u with pageIns := mark u.pageIns })).getD s
  | none, none => s

/-- Has an index entry whose page is being evicted been shared or pinned meanwhile, so that its page stays (R128, R130)?
(DEDUCED, log 116) -/
def evictStays (s : State) (g : Paging) : Bool :=
  match g.ref with
  | .request _ _ => false
  | .index e => decide (pfxField s g.tower e 0x10 63 48 ≠ 0) || decide (pfxField s g.tower e 0x10 47 32 ≠ 0)

/-- EVICTION_SWITCH (R71): the copy has landed; the entry becomes CXL and the TM page is freed. An entry cleared meanwhile
frees both pages; one that must stay frees the CXL page. -/
def execEvictionSwitch (k : Nat) (s : State) : Host.Outcome State Fault Refusal :=
  match s.evicts.find? (fun g => g.id = k) with
  | none => .next s
  | some g =>
    let s1 := { s with evicts := s.evicts.filter (fun h => h.id ≠ k) }
    let t := g.tower
    match g.new with
    | none => .next s1
    | some new =>
      let e := pagingEnds s g true new
      let n := poolPage s t g.pool
      if rangeHeld s e.1 n ∨ rangeHeld s e.2 n then .next s
      else if g.live = false then .next (freePage (freePage s1 t g.pool 1 new) t g.pool 0 g.old)
      else if evictStays s g then .next (freePage (refSet s1 t g.ref (setBits (refGet s1 t g.ref) 57 57 0)) t g.pool 1 new)
      else
        let s2 := copyRest s1 g e
        let x := refGet s2 t g.ref
        let s3 := refSet s2 t g.ref (setBits (setBits (setBits x 62 62 1) 57 57 0) 45 16 new)
        let s4 := match g.ref with
          | .request r p => rewriteImages s3 t r p
          | .index _ => s3
        .next (freePage s4 t g.pool 0 g.old)

/-! ### Page-in (R68, R69) -/

/-- Set EVP of every waiter of a page-in. -/
def wakeAll (s : State) (l : List (BitVec 32)) : State := l.foldl setEvp s

/-- Give a page-in without a TM page one, if there is one; otherwise begin an eviction for it. -/
def feedPageIn (s : State) (g : Paging) : State :=
  if g.new.isSome ∨ g.assisted then s
  else
    match allocPage s g.tower g.pool 0 with
    | some (b, s1) =>
      { s1 with pageIns := s1.pageIns.map (fun h => if h.id = g.id then { h with new := some b } else h) }
    | none => evictFor s g.tower g.pool 1 false 1

/-- Mark an entry as paging in, with its first waiters (R69, step 2). -/
def startPageIn (s : State) (t : BitVec 3) (pool : Nat) (r : PageRef) (waiters : List (BitVec 32)) (assisted : Bool) : State :=
  let x := refGet s t r
  let g : Paging := ⟨s.nextId, t, pool, r, entBase x, none, waiters, true, assisted, []⟩
  feedPageIn (refSet { s with pageIns := s.pageIns ++ [g], nextId := s.nextId + 1 } t r (setBits x 58 58 1)) g

/-- The registration that covers an LS offset of a task, if any. -/
def imageAt (s : State) (num : BitVec 32) (adr : Nat) : Option ImageReg :=
  s.images.find? (fun i => decide (i.num = num) && decide (i.adr = adr))

/-- A TIER_MISS of the acting task on a logical page of a request (R69, step 1): its entry decides. -/
def missOn (s : State) (t : BitVec 3) (n p : Nat) : State :=
  let num := (curTask s).num
  let x := if livePages s t n |>.contains p then pageGet s t n p else 0
  match pagingOf t (.request n p) s.pageIns with
  | some g =>
    if entV x then
      { s with pageIns := s.pageIns.map (fun h =>
          if h.id = g.id ∧ h.waiters.contains num = false then { h with waiters := h.waiters ++ [num] } else h) }
    else setEvp s num
  | none =>
    if entV x = false ∨ entTier x = 0 then setEvp s num
    else
      let s1 := startPageIn s t (reqPool s t n) (.request n p) [num] (kvAssisted s t)
      if kvAssisted s t then
        postEvent s1 t 0x46 (word (t.toNat * 2 ^ 61 + n)) s.pkg.cyc p
          (match s.cur with
           | .core _ c => c.toNat
           | .sup _ => 0xFF)
      else s1

/-- A TIER_MISS of the acting task on a logical page, through the image at a flat address (R69, step 1). -/
def tierMiss (s : State) (adr p : Nat) : State :=
  match imageAt s (curTask s).num adr with
  | none => setEvp s (curTask s).num
  | some i => missOn s i.tower i.req p

/-- PAGE_IN_SWITCH (R69): the copy has landed; the entry becomes TM, the CXL page is freed, images are rewritten and the
waiters wake. An entry cleared meanwhile frees both pages, or the one there is. -/
def execPageInSwitch (k : Nat) (s : State) : Host.Outcome State Fault Refusal :=
  match s.pageIns.find? (fun g => g.id = k) with
  | none => .next s
  | some g =>
    let t := g.tower
    let s1 := { s with pageIns := s.pageIns.filter (fun h => h.id ≠ k) }
    match g.new with
    | none => .next (if g.live ∨ g.assisted then s else wakeAll (freePage s1 t g.pool 1 g.old) g.waiters)
    | some new =>
      let e := pagingEnds s g false new
      let n := poolPage s t g.pool
      if rangeHeld s e.1 n ∨ rangeHeld s e.2 n then .next s
      else if g.live then
        let s2 := copyRest s1 g e
        let x := refGet s2 t g.ref
        let y := setBits (setBits (setBits (setBits x 62 62 0) 58 58 0) 45 16 new) 15 0 (frameLast s)
        let s3 := refSet s2 t g.ref y
        let s4 := match g.ref with
          | .request r p => rewriteImages s3 t r p
          | .index _ => s3
        .next (wakeAll (freePage s4 t g.pool 1 g.old) g.waiters)
      else .next (wakeAll (freePage (freePage s1 t g.pool 0 new) t g.pool 1 g.old) g.waiters)

/-! ### Length (R119, R122, R123, R174) -/

/-- The time word of an entry of a windowed request. -/
def timeAdr (s : State) (t : BitVec 3) (n e : Nat) : Nat := blockAdr t (blockOf s t n 1) + 4 * e

/-- Is the signed 32-bit difference of two times above a span? -/
def olderThan (now time span : Nat) : Bool := decide ((span : Int) < signed 32 (now + 2 ^ 32 - time % 2 ^ 32))

/-- WindowStep (R123): release ring pages from HEAD while they have expired. -/
def windowLoop (t : BitVec 3) (n now : Nat) : Nat → State → State
  | 0, s => s
  | fuel + 1, s =>
    let h := reqHead s t n
    if h + 1 < reqTop s t n ∧ olderThan now (readNat s (timeAdr s t n (entryOf s t n h)) 4) (reqField s t n 0x18 63 32) then
      windowLoop t n now fuel (setReq (clearPage s t n h) t n 0x10 31 0 (h + 1))
    else s

/-- WindowStep with NPAGES kept. -/
def windowStep (s : State) (t : BitVec 3) (n now : Nat) : State := countPages (windowLoop t n now 65 s) t n

/-- Release by ring overflow: the entry of a new page holds a live page. `none` where that page is tentative (R174). -/
def ringRelease (s : State) (t : BitVec 3) (n p : Nat) : Option State :=
  let x := pageGet s t n p
  if reqWin s t n ∧ reqSinks s t n ≤ p ∧ entV x then
    if entTent x then none
    else
      let q := p - reqRing s t n
      let s1 := setReq (clearPage s t n q) t n 0x10 31 0 (q + 1)
      some (setReq s1 t n 0x18 31 16 (satInc 16 (reqField s1 t n 0x18 31 16)))
  else some s

/-- What growth comes to. -/
inductive Grown where
  | ok (s : State)
  | noBlock
  | window
  | noPage
  deriving DecidableEq, Repr

/-- Take the block of an entry where it has none. -/
def needBlock (s : State) (t : BitVec 3) (n e : Nat) : Option State :=
  if blockOf s t n (e / 64) = 0xFFFF then
    match takeBlock s t with
    | some (b, s1) => some (setBlock s1 t n (e / 64) b)
    | none => none
  else some s

/-- HEAD stays the oldest live ring page (R115) when growth makes a page below it, as it can after a rollback (DEDUCED, log 125). -/
def headAt (s : State) (t : BitVec 3) (n p : Nat) : State :=
  if reqWin s t n ∧ reqSinks s t n ≤ p ∧ p < reqHead s t n then setReq s t n 0x10 31 0 p else s

/-- Allocate the pages from `p` on, `k` of them. A `dry` growth takes no page: it says whether blocks or the ring stand in the way. -/
def growPages (t : BitVec 3) (n : Nat) (dry : Bool) : Nat → Nat → State → Grown
  | _, 0, s => .ok s
  | p, k + 1, s =>
    match needBlock s t n (entryOf s t n p) with
    | none => .noBlock
    | some s1 =>
      match ringRelease s1 t n p with
      | none => .window
      | some s2 =>
        match (if dry then some (0, s2) else allocPage s2 t (reqPool s2 t n) 0) with
        | none => .noPage
        | some (b, s3) =>
          let sink := reqWin s3 t n && decide (p < reqSinks s3 t n)
          let x := 2 ^ 63 + (if reqLen s3 t n ≤ 16 * p then 2 ^ 61 else 0) + (if sink then 2 ^ 60 + 2 ^ 49 else 0) + b * 2 ^ 16
          growPages t n dry (p + 1) k (headAt (pageSet s3 t n p x) t n p)

/-- Stamp the pages that receive positions. -/
def stampPages (t : BitVec 3) (n stamp : Nat) : Nat → Nat → State → State
  | _, 0, s => s
  | p, k + 1, s => stampPages t n stamp (p + 1) k (writeNat s (timeAdr s t n (entryOf s t n p)) 4 stamp)

/-- Grow by pages: nothing is taken, and no page waited for, where a block or the ring stands in the way (R116, R174). -/
def growBy (t : BitVec 3) (n p k : Nat) (s : State) : Grown :=
  match growPages t n true p k s with
  | .ok _ => growPages t n false p k s
  | stop => stop

/-- KvGrow (R119): pages, then TLEN, then the stamps and WindowStep of a windowed request. -/
def kvGrow (s : State) (t : BitVec 3) (n len stamp : Nat) : Grown :=
  let old := reqTlen s t n
  let top := reqTop s t n
  match growBy t n top (ceilDiv len 16 - top) s with
  | .noBlock => .noBlock
  | .window => .window
  | .noPage => .noPage
  | .ok s1 =>
    let s2 := setReq s1 t n 8 63 32 len
    if reqWin s2 t n then
      let first := old / 16
      let s3 := if old < len then stampPages t n stamp first (ceilDiv len 16 - first) s2 else s2
      .ok (windowStep s3 t n stamp)
    else .ok (countPages s2 t n)

/-- KvCommit (R119). -/
def kvCommit (s : State) (t : BitVec 3) (n len : Nat) : State :=
  let s1 := setReq s t n 8 31 0 len
  ((livePages s1 t n).filter (fun p => 16 * p < len)).foldl (fun s p => pageSet s t n p (setBits (pageGet s t n p) 61 61 0)) s1

/-- KvRoll (R119): `none` where a page to be freed is pinned. -/
def kvRoll (s : State) (t : BitVec 3) (n len : Nat) : Option State :=
  let gone := (livePages s t n).filter (fun p => ceilDiv len 16 ≤ p)
  if gone.any (fun p => decide (entPin (pageGet s t n p) ≠ 0)) then none
  else
    let s1 := gone.reverse.foldl (fun s p => clearPage s t n p) s
    some (countPages (setReq s1 t n 8 63 32 len) t n)

end Sys2Proof.Machine
end

