-- ==== Sys2Proof/Machine/Requests.lean ====
section
/-!
DEFINITION. What the commands that name requests and pools do when their sequence manager performs them (spec
15_task_sequence_system.md R331, R333 to R338; 06_sequence_memory.md R114 to R123; 08_draft_and_check.md R164 to R173).
-/
namespace Sys2Proof.Machine

/-- The status of a reply word (R331). -/
inductive Status where
  | ok
  | stale
  | order
  | full
  | range
  | depth
  | tail
  | unchecked
  | bound
  | taillong
  | savefault
  | norec
  | limit
  | pinned
  | window
  | rights
  | state
  | badfield
  | badpool
  | badpage
  | notfull
  | noparent
  | inserted
  | merged
  | collide
  deriving DecidableEq, Repr

/-- The code of a status (R331). -/
def Status.code : Status → Nat
  | .ok => 0x00
  | .stale => 0x01
  | .order => 0x02
  | .full => 0x03
  | .range => 0x04
  | .depth => 0x05
  | .tail => 0x06
  | .unchecked => 0x07
  | .bound => 0x08
  | .taillong => 0x09
  | .savefault => 0x0A
  | .norec => 0x0B
  | .limit => 0x0C
  | .pinned => 0x0D
  | .window => 0x0E
  | .rights => 0x0F
  | .state => 0x10
  | .badfield => 0x11
  | .badpool => 0x12
  | .badpage => 0x13
  | .notfull => 0x14
  | .noparent => 0x15
  | .inserted => 0x16
  | .merged => 0x17
  | .collide => 0x18

/-- What performing a command comes to: done with its status and result, waiting with what it has begun, or a failed chunk at
an address (R329). `hold` says that a waiting command holds its place (R336, R339). -/
inductive CmdOut where
  | done (s : State) (st : Status) (result : Nat)
  | wait (s : State) (hold : Bool)
  | failed (adr : Word)
  deriving DecidableEq, Repr

/-- What FADR reports of memory that the device itself reads: its address in its tower's memory, or in CXL memory (DEDUCED, log 117). -/
def deviceAdr (a : Nat) : Word := if isTm a then word (a % 2 ^ 36) else if isCxl a then word (a % 2 ^ 42) else word a

/-- The tower of a request word (R330). -/
def wordTower (w : Word) : BitVec 3 := BitVec.ofNat 3 (bits w.toNat 63 61)
/-- The record index of a request word. -/
def wordReq (w : Word) : Nat := bits w.toNat 10 0

/-- Bind the issuer of a command to a request (R171). -/
def bindIssuer (s : State) (j : Job) (t : BitVec 3) (n : Nat) : State :=
  if isSup j.who ∨ (findTask s j.num).isNone then s else bindReq s t n j.num

/-- The checks of a command that names a request, before anything else (R331, R378); what passes them binds (R171). -/
def named (s : State) (j : Job) (c : Cmd) (w : Word) (bind : Bool) (f : State → BitVec 3 → Nat → CmdOut) : CmdOut :=
  let t := wordTower w
  let n := wordReq w
  if badRange s (reqAdr t n) 0x400 then .failed (deviceAdr ((firstLost s (reqAdr t n) 0x400).getD 0))
  else if isSup j.who = false ∧ reqCtx s t n ≠ c.ctx.toNat then .done s .rights 0
  else if reqOpen s t n = false then .done s .state 0
  else f (if bind then bindIssuer s j t n else s) t n

/-- A command that carries STEP (R166, R333). -/
def stepped (s : State) (t : BitVec 3) (n : Nat) (step : Word) (f : CmdOut) : CmdOut :=
  if reqStep s t n ≠ bits step.toNat 31 0 then .done s .stale 0 else f

/-! ### The token tree (R164 to R169) -/

/-- NNODES. -/
def reqNodes (s : State) (t : BitVec 3) (n : Nat) : Nat := reqField s t n 0x20 60 54
/-- SST. -/
def reqSst (s : State) (t : BitVec 3) (n : Nat) : Nat := reqField s t n 0x20 63 62
/-- KMAX. -/
def reqKmax (s : State) (t : BitVec 3) (n : Nat) : Nat := reqField s t n 0x20 53 50
/-- LINK of a node. -/
def linkOf (s : State) (t : BitVec 3) (n k : Nat) : Nat := readNat s (reqAdr t n + 0x40 + k) 1
/-- PARENT of a node. -/
def parentOf (s : State) (t : BitVec 3) (n k : Nat) : Nat := linkOf s t n k % 64
/-- Is a node live? -/
def nodeLive (s : State) (t : BitVec 3) (n k : Nat) : Bool := bit (linkOf s t n k) 7
/-- Is a node checked? -/
def nodeChecked (s : State) (t : BitVec 3) (n k : Nat) : Bool := bit (linkOf s t n k) 6
/-- TOKEN, Q and P of a node. -/
def nodeWord (s : State) (t : BitVec 3) (n k : Nat) : Nat := readNat s (reqAdr t n + 0x100 + 8 * k) 8
/-- NEXT of a node. -/
def nextOf (s : State) (t : BitVec 3) (n k : Nat) : Nat := readNat s (reqAdr t n + 0x300 + 4 * k) 4

/-- The depth of a node: its PARENT steps to the root. -/
def nodeDepth (s : State) (t : BitVec 3) (n : Nat) : Nat → Nat → Nat
  | 0, _ => 0
  | fuel + 1, k => if k = 0 then 0 else nodeDepth s t n fuel (parentOf s t n k) + 1

/-- SQNODE (R166). -/
def perfSqnode (s : State) (j : Job) (c : Cmd) : CmdOut :=
  named s j c c.a true (fun s t n => stepped s t n c.c (
    let k := reqNodes s t n
    let b := c.b.toNat
    let a := bits b 5 0
    if reqSst s t n = 2 then .done s .order 0
    else if 64 ≤ k then .done s .full 0
    else if k ≤ a then .done s .range 0
    else if reqKmax s t n ≤ nodeDepth s t n 64 a then .done s .depth 0
    else
      let s1 := writeNat s (reqAdr t n + 0x40 + k) 1 (0x80 + a)
      let s2 := writeNat s1 (reqAdr t n + 0x100 + 8 * k) 8 (bits b 63 32 * 2 ^ 32 + bits b 31 16 * 2 ^ 16)
      .done (setReq (setReq s2 t n 0x20 60 54 (k + 1)) t n 0x20 63 62 1) .ok k))

/-- The entries of a check list: node, P and NEXT. -/
def checkList (s : State) (a n : Nat) : List Nat := (List.range n).map (fun i => readNat s (a + 8 * i) 8)

/-- Are numbers strictly ascending? -/
def ascending : List Nat → Bool
  | [] => true
  | [_] => true
  | x :: y :: l => decide (x < y) && ascending (y :: l)

/-- Write one entry of a check list (R166, R333). -/
def checkNode (t : BitVec 3) (n : Nat) (s : State) (e : Nat) : State :=
  let k := bits e 5 0
  let s1 := writeNat s (reqAdr t n + 0x300 + 4 * k) 4 (bits e 63 32)
  let s2 := writeNat s1 (reqAdr t n + 0x40 + k) 1 (setBits (linkOf s1 t n k) 6 6 1)
  if k = 0 then s2 else putField s2 (reqAdr t n + 0x100 + 8 * k) 15 0 (bits e 31 16)

/-- SQCHK (R166, R333). -/
def perfSqchk (s : State) (j : Job) (c : Cmd) : CmdOut :=
  named s j c c.a true (fun s t n => stepped s t n c.c (
    let l := checkList s c.block (bits c.c.toNat 38 32)
    if ascending (l.map (fun e => bits e 5 0)) = false ∨ l.any (fun e => decide (bits e 15 6 ≠ 0)) then .done s .badfield 0
    else if l.any (fun e => !nodeLive s t n (bits e 5 0)) then .done s .range 0
    else if reqTlen s t n ≠ (reqLen s t n + reqNodes s t n) % 2 ^ 32 then .done s .tail 0
    else .done (setReq (l.foldl (checkNode t n) s) t n 0x20 63 62 2) .ok 0))

/-- The generator of R168. -/
def gen (seed : Word) (pos j : Nat) : Nat :=
  let x0 := seed ^^^ (word (j * 2 ^ 32 + pos % 2 ^ 32) * 0x9E37_79B9_7F4A_7C15#64)
  let x1 := (x0 ^^^ (x0 >>> 30)) * 0xBF58_476D_1CE4_E5B9#64
  let x2 := (x1 ^^^ (x1 >>> 27)) * 0x94D0_49BB_1331_11EB#64
  let x3 := x2 ^^^ (x2 >>> 31)
  bits x3.toNat 63 48

/-- Is a child accepted under the rule of the request (R167)? `d` is the depth that it decides, `j` its ordinal. -/
def accepts (s : State) (t : BitVec 3) (n cur d j k : Nat) : Bool :=
  let w := nodeWord s t n k
  if reqField s t n 0x20 61 61 = 0 then decide (bits w 63 32 = nextOf s t n cur)
  else decide (gen (word (readNat s (reqAdr t n + 0x28) 8)) (reqLen s t n + d) j * bits w 31 16 < bits w 15 0 * 65536)

/-- The first accepted among children, by their ordinal. -/
def firstAccepted (s : State) (t : BitVec 3) (n cur d : Nat) : Nat → List Nat → Option Nat
  | _, [] => none
  | j, k :: l => if accepts s t n cur d j k then some k else firstAccepted s t n cur d (j + 1) l

/-- The path that acceptance walks from a node at depth `a` (R167). -/
def acceptPath (s : State) (t : BitVec 3) (n : Nat) : Nat → Nat → Nat → List Nat
  | 0, _, _ => []
  | fuel + 1, cur, a =>
    let kids := (List.range (reqNodes s t n)).filter (fun k => decide (1 ≤ k) && decide (parentOf s t n k = cur))
    match firstAccepted s t n cur (a + 1) 0 kids with
    | none => []
    | some k => k :: acceptPath s t n fuel k (a + 1)

/-- The accept record of a bonus token and a path (R169). -/
def acceptRecord (len bonus : Nat) (path : List Nat) : List Byte :=
  let moves := (List.range path.length).filterMap (fun i =>
    let k := path.getD i 0
    if k ≠ i + 1 then some ((len + k) % 2 ^ 32 * 2 ^ 32 + (len + i + 1) % 2 ^ 32) else none)
  let ws := (bonus * 2 ^ 32 + moves.length * 2 ^ 8 + path.length) :: moves
  (ws.flatMap (leBytes 8) ++ List.replicate 128 (0#8)).take 128

/-- SQACC completes (R169): the record of the request after acceptance. -/
def acceptDone (s : State) (t : BitVec 3) (n bonus a : Nat) : State :=
  let w0 := readNat s (reqAdr t n + 0x100) 8
  let s1 := writeNat s (reqAdr t n + 0x100) 8 (setBits w0 63 32 bonus)
  let s2 := writeBytes s1 (reqAdr t n + 0x40) (0x80#8 :: List.replicate 63 (0#8))
  let s3 := setReq (setReq s2 t n 0x20 60 54 1) t n 0x20 47 40 (a + 1)
  setReq (setReq s3 t n 0x20 63 62 0) t n 0x20 31 0 (reqStep s t n + 1)

/-- What the device accepts: the bonus token and the path (R167). -/
def acceptWalk (s : State) (t : BitVec 3) (n : Nat) : Nat × List Nat :=
  let path := acceptPath s t n 64 0 0
  (nextOf s t n (path.getLastD 0), path)

/-- The bonus token and the path that an accept record gives, where it passes the device's check (R336). -/
def recordWalk (s : State) (t : BitVec 3) (n adr : Nat) : Option (Nat × List Nat) :=
  let w0 := readNat s adr 8
  let a := bits w0 7 0
  let m := bits w0 15 8
  let len := reqLen s t n
  let deep := (List.range (reqNodes s t n)).foldl (fun d k => max d (nodeDepth s t n 64 k)) 0
  let moves := (List.range m).map (fun i =>
    let w := readNat s (adr + 8 + 8 * i) 8
    ((bits w 63 32 + 2 ^ 32 - len % 2 ^ 32) % 2 ^ 32, (bits w 31 0 + 2 ^ 32 - len % 2 ^ 32) % 2 ^ 32))
  if a ≤ deep ∧ m ≤ 15 ∧ moves.all (fun x => decide (x.1 < 64) && nodeLive s t n x.1 && decide (1 ≤ x.1) && decide (1 ≤ x.2) && decide (x.2 ≤ a)) then
    some (bits w0 63 32, (List.range a).map (fun i =>
      match moves.find? (fun x => x.2 = i + 1) with
      | some x => x.1
      | none => i + 1))
  else none

/-- Finish an acceptance: the accept record at a block, then the request's record. -/
def acceptFinish (s : State) (t : BitVec 3) (n adr : Nat) (w : Nat × List Nat) : State :=
  acceptDone (storeQuiet s adr (acceptRecord (reqLen s t n) w.1 w.2)) t n w.1 w.2.length

/-- Is some live node of a request unchecked? -/
def unchecked (s : State) (t : BitVec 3) (n : Nat) : Bool :=
  (List.range 64).any (fun k => nodeLive s t n k && !nodeChecked s t n k)

/-- SQACC (R167 to R169, R336): in assisted mode it posts SQ_ACCEPT once and stays pending. -/
def perfSqacc (s : State) (j : Job) (c : Cmd) : CmdOut :=
  named s j c c.a true (fun s t n => stepped s t n c.c (
    if c.posted then .wait s true
    else if unchecked s t n then .done s .unchecked 0
    else if (getTower s t).fmr.getLsbD 4 then
      .wait (postEvent s t 0x51 c.a (word (reqStep s t n)) 0 0xFF) true
    else
      let w := acceptWalk s t n
      .done (acceptFinish s t n c.block w) .ok w.2.length))

/-! ### Opening and closing (R165, R334, R335) -/

/-- A word of a block in memory. -/
def blockWord (s : State) (a i : Nat) : Nat := readNat s (a + 8 * i) 8

/-- Is an open block's encoding refused (R334)? -/
def openBad (s : State) (a : Nat) : Bool :=
  let w0 := blockWord s a 0
  let w3 := blockWord s a 3
  decide (bits w0 28 0 ≠ 0) || decide (bits w0 61 58 = 0) || decide (bits (blockWord s a 2) 63 32 ≠ 0) ||
    [4, 5, 6, 7].any (fun i => decide (blockWord s a i ≠ 0)) ||
    (if bit w0 63 then
      decide (bits w3 53 32 ≠ 0) || decide (bits w3 59 54 = 0) || decide (64 < bits w3 63 60 + bits w3 59 54)
     else decide (w3 ≠ 0))

/-- Write a new request record from an open block (R165, R334). -/
def openRecord (s : State) (t : BitVec 3) (n : Nat) (ctx : BitVec 12) (a : Nat) : State :=
  let w0 := blockWord s a 0
  let w3 := blockWord s a 3
  let win := bits w0 63 63
  let r := reqAdr t n
  let s1 := writeNat s r 8
    (2 ^ 63 + win * 2 ^ 62 + ctx.toNat * 2 ^ 50 + bits w0 44 29 * 2 ^ 34 + bits w0 57 52 * 2 ^ 28 + bits w0 51 45 * 2 ^ 21)
  let s2 := writeNat s1 (r + 8) 8 0
  let s3 := writeNat s2 (r + 0x10) 8 (bits w3 63 60 * 2 ^ 44 + bits w3 59 54 * 2 ^ 38 + bits w3 63 60)
  let s4 := writeNat s3 (r + 0x18) 8 (bits w3 31 0 * 2 ^ 32)
  let s5 := writeNat s4 (r + 0x20) 8 (bits w0 62 62 * 2 ^ 61 + 2 ^ 54 + bits w0 61 58 * 2 ^ 50)
  let s6 := writeNat s5 (r + 0x28) 8 (blockWord s a 1)
  let s7 := writeNat s6 (r + 0x40) 1 0x80
  writeNat s7 (r + 0x100) 8 (bits (blockWord s a 2) 31 0 * 2 ^ 32)

/-- SQOPEN (R334), on the issuing tower. The supervisor core, which acts in every context, opens a request in the context of the pool
that it names (R331, R401) (DEDUCED, log 84). -/
def perfSqopen (s : State) (j : Job) (c : Cmd) : CmdOut :=
  let t := agentTower j.who
  let w0 := blockWord s c.block 0
  let p := bits w0 57 52
  let ctx := if isSup j.who then BitVec.ofNat 12 (poolCtx s t p) else c.ctx
  if openBad s c.block then .done s .badfield 0
  else if poolOn s t p = false ∨ poolCtx s t p ≠ ctx.toNat then .done s .badpool 0
  else
    match freeRecord s t with
    | none => .done s .norec 0
    | some n =>
      let opened := openRecord s t n ctx c.block
      if bit w0 63 then
        match takeBlock opened t with
        | none => .done s .full 0
        | some (b0, s1) =>
          match takeBlock s1 t with
          | none => .done s .full 0
          | some (b1, s2) => .done (bindIssuer (setBlock (setBlock s2 t n 0 b0) t n 1 b1) j t n) .ok n
      else .done (bindIssuer opened j t n) .ok n

/-- Does an enabled stream name a request? -/
def streamNames (s : State) (t : BitVec 3) (n : Nat) : Bool :=
  (streamsOn s t).any (fun k => decide (getField s (streamAdr t k) 31 21 = n))

/-- SQCLOSE (R335). -/
def perfSqclose (s : State) (j : Job) (c : Cmd) : CmdOut :=
  named s j c c.a true (fun s t n =>
    if boundOther s t n j.num then .done s .bound 0
    else if streamNames s t n then .done s .state 0
    else
      let s1 := (livePages s t n).foldl (fun s p => clearPage s t n p) s
      .done (dropRecord (sweepMerged (unbindReq s1 t n)) t n) .ok 0)

/-! ### Length and export (R119 to R122, R337) -/

/-- KVGROW: it waits, with evictions begun, while it lacks a page (R71, R337). -/
def perfKvgrow (s : State) (j : Job) (c : Cmd) : CmdOut :=
  named s j c c.a true (fun s t n =>
    let len := bits c.b.toNat 31 0
    if len < reqTlen s t n then .done s .range 0
    else if reqWin s t n = false ∧ 65536 < len then .done s .limit 0
    else
      match kvGrow s t n len (bits c.c.toNat 31 0) with
      | .ok s1 => .done s1 .ok (reqPages s1 t n)
      | .noBlock => .done s .full 0
      | .window => .done s .window 0
      | .noPage =>
        let k := ceilDiv len 16 - reqTop s t n
        .wait (evictFor s t (reqPool s t n) k (c.mode.getD (kvAssisted s t)) k) false)

/-- KVCOMMIT. -/
def perfKvcommit (s : State) (j : Job) (c : Cmd) : CmdOut :=
  named s j c c.a true (fun s t n =>
    let len := bits c.b.toNat 31 0
    if len < reqLen s t n ∨ reqTlen s t n < len then .done s .range 0
    else .done (kvCommit s t n len) .ok len)

/-- KVROLL. -/
def perfKvroll (s : State) (j : Job) (c : Cmd) : CmdOut :=
  named s j c c.a true (fun s t n =>
    let len := bits c.b.toNat 31 0
    if len < reqLen s t n ∨ reqTlen s t n < len then .done s .range 0
    else
      match kvRoll s t n len with
      | none => .done s .pinned 0
      | some s1 => .done s1 .ok len)

/-- The pages that an export takes (R120): FIRST, the live sinks, the ring or ordinary pages. -/
def exportPages (s : State) (t : BitVec 3) (n f cnt : Nat) : Nat × List Nat × List Nat :=
  let live := livePages s t n
  if reqWin s t n then
    let k := reqSinks s t n
    let g := max f (reqHead s t n)
    let sinks := live.filter (fun p => p < k)
    let ring := live.filter (fun p => k ≤ p ∧ g ≤ p)
    (g, sinks, (if cnt = 0 then ring else ring.take cnt).take (63 - sinks.length))
  else (f, [], live.filter (fun p => f ≤ p ∧ p < f + cnt))

/-- KVEXPORT (R120, R121): it touches the entries it exports (DEDUCED, log 90). An image is registered for a task that still stands on
the issuing core: a registration ends with its task and at a pre-emption. -/
def perfKvexport (s : State) (j : Job) (c : Cmd) : CmdOut :=
  named s j c c.a false (fun s t n =>
    let f := bits c.c.toNat 63 32
    let cnt := bits c.c.toNat 5 0
    let top := reqTop s t n
    if (reqWin s t n = false ∧ (cnt = 0 ∨ reqPages s t n ≤ f)) ∨ (reqWin s t n = true ∧ 0 < top ∧ top ≤ f) then .done s .range 0
    else
      let (first, sinks, rest) := exportPages s t n f cnt
      let ps := sinks ++ rest
      let s1 := ps.foldl (fun s p => pageSet s t n p (setBits (pageGet s t n p) 15 0 (frameLast s))) s
      let ws := (first % 2 ^ 32 * 2 ^ 32 + sinks.length * 2 ^ 16 + ps.length) :: ps.map (pageGet s1 t n)
      let s2 := storeQuiet s1 c.block ((ws.flatMap (leBytes 8) ++ List.replicate 512 (0#8)).take 512)
      let i : ImageReg := ⟨t, n, j.num, c.block, first, sinks.length, ps.length⟩
      let others := s2.images.filter (fun r => !(decide (r.num = j.num) && decide (r.adr = c.block)))
      let mine := others.filter (fun r => decide (r.tower = t) && decide (r.req = n))
      let kept := match mine with
        | old :: _ :: _ :: _ :: _ => others.filter (fun r => r ≠ old)
        | _ => others
      .done (if findPlaced s2 j.num = some j.who then { s2 with images := kept ++ [i] } else s2) .ok ps.length)

/-! ### Saving and restoring a request (R171, R172) -/

/-- The flat addresses of the 64 KiB pieces of a save area of a context, each of whose leaves gives a right: RD is bit 15, WR bit
14. `none` where a translation fails. -/
def areaPieces (s : State) (t : BitVec 3) (ctx : BitVec 12) (va : Word) (right : Nat) (n : Nat) : Option (List Nat) :=
  (List.range n).mapM (fun i =>
    let v := va + word (i * 2 ^ 16)
    if canonical v = false then none
    else
      match walk s t ctx v with
      | some (size, leaf) =>
        if bit leaf right then
          some (spaceFlat (bits leaf 61 60) (bits leaf 59 57) (bits leaf 51 16 * 2 ^ 16 + v.toNat % pageSize size))
        else none
      | none => none)

/-- The flat address of a byte of an area given by its pieces. -/
def areaByte (ps : List Nat) (off : Nat) : Nat := ps.getD (off / 2 ^ 16) 0 + off % 2 ^ 16

/-- Copy between a page and an area, by its pieces of 4 KiB. -/
def areaCopy (ps : List Nat) (off page n : Nat) (out : Bool) (s : State) : State :=
  (List.range (ceilDiv n 4096)).foldl (fun s i =>
    let a := areaByte ps (off + 4096 * i)
    let p := page + 4096 * i
    if out then copyRaw s p a 4096 else copyRaw s a p 4096) s

/-- The first 8 bytes of a range of an area that are uncorrectable, if any, as an offset. -/
def areaBad (s : State) (ps : List Nat) (off n : Nat) : Option Nat :=
  ((List.range (n / 8)).map (fun i => off + 8 * i)).find? (fun o => badRange s (areaByte ps o) 8)

/-- Is a range of an area held by the retirement of a spire? -/
def areaHeld (s : State) (ps : List Nat) (off n : Nat) : Bool := (List.range (ceilDiv n 64)).any (fun i => spireHeld s (areaByte ps (off + 64 * i)))

/-- Is a leaf usable at an address given as a save area (R333)? -/
def areaOk (va : Word) : Bool := canonical va && decide (va.toNat % 2 ^ 16 = 0)

/-- The ranges of a request's pages. -/
def pageRanges (s : State) (t : BitVec 3) (n : Nat) : List (Nat × Nat) :=
  (livePages s t n).map (fun p =>
    let x := pageGet s t n p
    (pageFlat s t (reqPool s t n) (entTier x) (entBase x), poolPage s t (reqPool s t n)))

/-- Does an access, a copy, a paging or a running MATT still use a page of a request (R171, step 1)? -/
def requestBusy (s : State) (t : BitVec 3) (n : Nat) : Bool :=
  (pageRanges s t n).any (fun r => !(issuedTo s r.1 r.2).isEmpty) ||
    (livePages s t n).any (fun p =>
      (pagingOf t (.request n p) s.pageIns).isSome || (pagingOf t (.request n p) s.evicts).isSome) ||
    s.cores.any (fun c => c.2.live && c.2.task.macros.any (fun m =>
      decide (m.kind = .matt) && m.begun && decide (wordTower m.request = t) && decide (wordReq m.request = n)))

/-- The number of entries that a save holds. -/
def savedEntries (s : State) (t : BitVec 3) (n : Nat) : Nat := min (reqTop s t n) 4096

/-- Write the record and the tables of a request to the start of its save area (R171, step 2). -/
def saveTables (t : BitVec 3) (n : Nat) (ps : List Nat) (s : State) : State :=
  let a := areaByte ps 0
  let s1 := storeQuiet s a (readBytes s (reqAdr t n) 0x400)
  if reqWin s t n then
    storeQuiet (storeQuiet s1 (a + 0x400) (readBytes s (blockAdr t (blockOf s t n 0)) 0x200)) (a + 0x600)
      (readBytes s (blockAdr t (blockOf s t n 1)) 0x200)
  else storeQuiet s1 (a + 0x400) ((List.range (savedEntries s t n)).flatMap (fun e => leBytes 8 (entryGet s t n e)))

/-- SQSAVE (R171). -/
def perfSqsave (s : State) (j : Job) (c : Cmd) : CmdOut :=
  named s j c c.a true (fun s t n =>
    let pool := reqPool s t n
    let tent := (livePages s t n).filter (fun p => entTent (pageGet s t n p))
    let size := poolPage s t pool
    if boundOther s t n j.num then .done s .bound 0
    else if 64 < reqTlen s t n - reqLen s t n then .done s .taillong 0
    else if requestBusy s t n then .wait s false
    else
      match (if areaOk c.b then areaPieces s t (BitVec.ofNat 12 (reqCtx s t n)) c.b 14 (1 + ceilDiv (tent.length * size) (2 ^ 16)) else none) with
      | none => .done s .savefault 0
      | some ps =>
        match tent.findSome? (fun p => firstLost s (pageFlat s t pool 0 (entBase (pageGet s t n p))) size) with
        | some a => .failed (deviceAdr a)
        | none =>
          if areaHeld s ps 0 (2 ^ 16 + tent.length * size) ∨
              tent.any (fun p => rangeHeld s (pageFlat s t pool 0 (entBase (pageGet s t n p))) size) then .wait s false
          else
          let s1 := saveTables t n ps s
          let s2 := (List.range tent.length).foldl (fun s k =>
            areaCopy ps (2 ^ 16 + k * size) (pageFlat s t pool 0 (entBase (pageGet s t n (tent.getD k 0)))) size true s) s1
          let s3 := tent.foldl (fun s p => clearPage s t n p) s2
          .done (dropRecord (sweepMerged (unbindReq s3 t n)) t n) .ok 0)

/-- Take blocks for the entries of a restored record: all, or none. -/
def takeBlocks (t : BitVec 3) (n : Nat) : Nat → Nat → State → Option State
  | _, 0, s => some s
  | i, k + 1, s =>
    match takeBlock s t with
    | some (b, s1) => takeBlocks t n (i + 1) k (setBlock s1 t n i b)
    | none => none

/-- Give fresh pages to the tentative entries of a restored request, in page order. -/
def takePages (t : BitVec 3) (n : Nat) : List Nat → State → Option State
  | [], s => some s
  | p :: l, s =>
    match allocPage s t (reqPool s t n) 0 with
    | some (b, s1) => takePages t n l (pageSet s1 t n p (setBits (pageGet s1 t n p) 45 16 b))
    | none => none

/-- Put back the tables of a request from its save area, in blocks taken already. -/
def loadTables (t : BitVec 3) (n a : Nat) (s : State) : State :=
  if reqWin s t n then
    writeBytes (writeBytes s (blockAdr t (blockOf s t n 0)) (readBytes s (a + 0x400) 0x200)) (blockAdr t (blockOf s t n 1))
      (readBytes s (a + 0x600) 0x200)
  else (List.range (savedEntries s t n)).foldl (fun s e => entrySet s t n e (readNat s (a + 0x400 + 8 * e) 8)) s

/-- SQRST (R172), on the issuing tower, the area translated in the issuer's context (DEDUCED, log 32). -/
def perfSqrst (s : State) (j : Job) (c : Cmd) : CmdOut :=
  let t := agentTower j.who
  match freeRecord s t with
  | none => .done s .norec 0
  | some n =>
    match (if areaOk c.a then areaPieces s t c.ctx c.a 15 1 else none) with
    | none => .done s .savefault 0
    | some ps =>
      let a := areaByte ps 0
      let table := fun (s : State) => if reqWin s t n then 0x400 else 8 * savedEntries s t n
      if areaHeld s ps 0 0x8400 then .wait s false
      else if (areaBad s ps 0 0x400).isSome then .failed (c.a + word ((areaBad s ps 0 0x400).getD 0))
      else
        let s1 := writeBytes s (reqAdr t n) (readBytes s a 0x80 ++ List.replicate 0x80 (0xFF#8) ++ readBytes s (a + 0x100) 0x300)
        let blocks := if reqWin s1 t n then 2 else ceilDiv (savedEntries s1 t n) 64
        if (areaBad s1 ps 0x400 (table s1)).isSome then .failed (c.a + word ((areaBad s1 ps 0x400 (table s1)).getD 0))
        else
        match takeBlocks t n 0 blocks s1 with
        | none => .done s .full 0
        | some s2 =>
          let s3 := loadTables t n a s2
          let tent := (livePages s3 t n).filter (fun p => entTent (pageGet s3 t n p))
          let size := poolPage s3 t (reqPool s3 t n)
          match takePages t n tent s3 with
          | none => .done s .full 0
          | some s4 =>
            match areaPieces s t c.ctx c.a 15 (1 + ceilDiv (tent.length * size) (2 ^ 16)) with
            | none => .done s .savefault 0
            | some all =>
              if isSup j.who = false ∧ reqCtx s4 t n ≠ c.ctx.toNat then .done s .rights 0
              else if areaHeld s all (2 ^ 16) (tent.length * size) then .wait s false
              else if (areaBad s all (2 ^ 16) (tent.length * size)).isSome then
                .failed (c.a + word ((areaBad s all (2 ^ 16) (tent.length * size)).getD 0))
              else
                let s5 := (List.range tent.length).foldl (fun s k =>
                  areaCopy all (2 ^ 16 + k * size) (pageFlat s t (reqPool s t n) 0 (entBase (pageGet s t n (tent.getD k 0)))) size false s) s4
                .done (bindIssuer s5 j t n) .ok n

/-! ### KV pools (R114, R338) -/

/-- Is a window's base a multiple of 64 KiB and of the page? -/
def winAligned (n page : Nat) : Bool := decide (n % 2 ^ 16 = 0) && decide (n % page = 0)

/-- Does a pool record pass the checks of R114? The virtual bases are bases too, and those of the CXL tier are checked only where
there is one (DEDUCED, log 139). -/
def poolGood (s : State) (t : BitVec 3) (p : Nat) : Bool :=
  let w := fun (i : Nat) => blockWord s (poolAdr t p) i
  let page := poolPage s t p
  let n := bits (w 3) 63 32
  let m := bits (w 6) 63 32
  decide (bits (w 0) 62 59 = 0) && decide (bits (w 0) 43 0 = 0) && decide (bits (w 2) 63 36 = 0) && decide (bits (w 5) 63 42 = 0) &&
    decide (w 7 = 0) && canonical (word (w 1)) && winAligned (w 1) page && winAligned (w 2) page && decide (w 2 + n * page ≤ 2 ^ 36) &&
    (decide (m = 0) ||
      (canonical (word (w 4)) && winAligned (w 4) page && winAligned (w 5) page && decide (w 5 + m * page ≤ cxlEnd s))) &&
    (List.range 64).all (fun q =>
      decide (q = p) || !poolOn s t q ||
        (let a := poolField s t q 0x10 35 0
         let k := poolNum s t q 0 * poolPage s t q
         decide (w 2 + n * page ≤ a) || decide (a + k ≤ w 2)))

/-- The pages of a tier's window that are allocated. -/
def pagesTaken (s : State) (t : BitVec 3) (p tier : Nat) : Nat :=
  let k := pageKey t p tier 0
  (s.pages.filter (fun x => decide (k ≤ x) && decide (x < k + poolNum s t p tier))).length

/-- KVPOOL ENABLE: pages still allocated stay so, and the free counts are what is left (DEDUCED, log 33). -/
def perfPoolEnable (s : State) (j : Job) (c : Cmd) : CmdOut :=
  let t := agentTower j.who
  let p := bits c.b.toNat 5 0
  if poolOn s t p then .done s .state 0
  else if poolGood s t p = false then .done s .badpool 0
  else
    let s1 := putField s (poolAdr t p) 63 63 1
    let s2 := putField s1 (poolAdr t p + 0x18) 31 0 (poolNum s t p 0 - pagesTaken s t p 0)
    .done (putField s2 (poolAdr t p + 0x30) 31 0 (poolNum s t p 1 - pagesTaken s t p 1)) .ok (poolNum s t p 0)

/-- KVPOOL DISABLE. -/
def perfPoolDisable (s : State) (j : Job) (c : Cmd) : CmdOut :=
  let t := agentTower j.who
  let p := bits c.b.toNat 5 0
  if (reqsOn s t).any (fun n => reqPool s t n = p) then .done s .state 0
  else .done (putField s (poolAdr t p) 63 63 0) .ok 0

/-- KVPOOL PIN and UNPIN of a live page. -/
def perfPin (s : State) (j : Job) (c : Cmd) (up : Bool) : CmdOut :=
  named s j c c.b true (fun s t n =>
    let p := bits c.c.toNat 31 0
    let x := pageGet s t n p
    if (livePages s t n).contains p = false then .done s .range 0
    else if entPin x = (if up then 255 else 0) then .done s .limit 0
    else
      let k := if up then entPin x + 1 else entPin x - 1
      .done (pageSet s t n p (setBits x 56 49 k)) .ok k)

/-- KVPOOL PIN. -/
def perfPoolPin (s : State) (j : Job) (c : Cmd) : CmdOut := perfPin s j c true
/-- KVPOOL UNPIN. -/
def perfPoolUnpin (s : State) (j : Job) (c : Cmd) : CmdOut := perfPin s j c false

/-- End the pagings of a page: its waiters wake; what the device itself copies runs on for nobody. -/
def endPaging (s : State) (t : BitVec 3) (n p : Nat) : State :=
  let mine := s.pageIns.filter (fun g => decide (g.tower = t) && decide (g.ref = .request n p) && g.live)
  let s1 := { s with
    pageIns := s.pageIns.filterMap (fun g =>
      if g.tower = t ∧ g.ref = .request n p ∧ g.live = true then
        (if g.assisted then none else some { g with live := false, waiters := [] })
      else some g)
    evicts := orphan t (.request n p) s.evicts }
  wakeAll s1 (mine.flatMap (fun g => g.waiters))

/-- A SETENT that finds the page gone ends the assisted page-in whose entry was cleared: the CXL page is freed and its waiters
wake (R69). -/
def endOrphans (s : State) (t : BitVec 3) (n p : Nat) : State :=
  let dead := s.pageIns.filter (fun g => decide (g.tower = t) && decide (g.ref = .request n p) && g.assisted && !g.live)
  let s1 := { s with pageIns := s.pageIns.filter (fun g => !dead.contains g) }
  dead.foldl (fun s g => wakeAll (freePage s t g.pool 1 g.old) g.waiters) s1

/-- Does an assisted page-in of a page still stand whose entry has been cleared? -/
def orphaned (s : State) (t : BitVec 3) (n p : Nat) : Bool :=
  s.pageIns.any (fun g => decide (g.tower = t) && decide (g.ref = .request n p) && g.assisted && !g.live)

/-- KVPOOL SETENT (R338, R69). An entry that the closing of its request has cleared gives RANGE as any other cleared entry does. -/
def perfPoolSetent (s : State) (j : Job) (c : Cmd) : CmdOut :=
  let p := bits c.c.toNat 31 0
  let t0 := wordTower c.b
  let n0 := wordReq c.b
  if reqOpen s t0 n0 = false ∧ orphaned s t0 n0 p = true then .done (endOrphans s t0 n0 p) .range 0 else
  named s j c c.b true (fun s t n =>
    let x := pageGet s t n p
    if (livePages s t n).contains p = false ∨ (entPgin x = false ∧ entEvic x = false) then .done (endOrphans s t n p) .range 0
    else
      let d := c.d.toNat
      let y := setBits (setBits (setBits (setBits x 62 62 (bits d 62 62)) 45 16 (bits d 45 16)) 58 58 0) 57 57 0
      let z := if entPgin x then setBits y 15 0 (frameLast s) else y
      .done (endPaging (rewriteImages (pageSet s t n p z) t n p) t n p) .ok 0)

/-- KVPOOL ALLOC. -/
def perfPoolAlloc (s : State) (j : Job) (c : Cmd) : CmdOut :=
  match allocPage s (agentTower j.who) (bits c.b.toNat 5 0) (bits c.c.toNat 0 0) with
  | none => .done s .full 0
  | some (b, s1) => .done s1 .ok b

/-- KVPOOL FREE. -/
def perfPoolFree (s : State) (j : Job) (c : Cmd) : CmdOut :=
  let t := agentTower j.who
  let p := bits c.b.toNat 5 0
  let tier := bits c.c.toNat 0 0
  let b := bits c.d.toNat 29 0
  let key := pageKeyOf s t p tier b
  if s.pages.contains key = false ∨ b * 4096 % poolPage s t p ≠ 0 ∨ s.freeing.any (fun f => decide (f.1 = key)) then
    .done s .range 0
  else .done (freePage s t p tier b) .ok 0

end Sys2Proof.Machine
end

