-- ==== Sys2Proof/Machine/Prefix.lean ====
section
/-!
DEFINITION. The prefix index: partitions, probes, lookup, insertion and pins (spec 06_sequence_memory.md R124 to R131,
15_task_sequence_system.md R339, 17_traps_preemption.md R379).
-/
namespace Sys2Proof.Machine

/-! ### Partitions (R125) -/

/-- A field of a partition descriptor. -/
def partField (s : State) (t : BitVec 3) (p hi lo : Nat) : Nat := getField s (partAdr t p) hi lo
/-- The entries of a partition. -/
def partSize (s : State) (t : BitVec 3) (p : Nat) : Nat := 64 * 2 ^ partField s t p 62 60
/-- The first entry of a partition. -/
def partFirst (s : State) (t : BitVec 3) (p : Nat) : Nat := partField s t p 59 47
/-- PART of a request. -/
def reqPart (s : State) (t : BitVec 3) (n : Nat) : Nat := reqField s t n 0 27 21
/-- MODEL of a request. -/
def reqModel (s : State) (t : BitVec 3) (n : Nat) : Nat := reqField s t n 0 49 34

/-- May a request use its partition? -/
def partOk (s : State) (t : BitVec 3) (n : Nat) : Bool :=
  let p := reqPart s t n
  decide (partField s t p 63 63 = 1) && decide (partField s t p 46 35 = reqCtx s t n)

/-- Is an entry inside a partition? -/
def inPart (s : State) (t : BitVec 3) (p e : Nat) : Bool :=
  decide (partFirst s t p ≤ e) && decide (e < partFirst s t p + partSize s t p) && decide (e < 8192)

/-- Is an entry valid? -/
def pfxOn (s : State) (t : BitVec 3) (e : Nat) : Bool := decide (pfxField s t e 8 63 62 = 1)

/-! ### Buckets and probes (R126, R127) -/

/-- The bucket of a key in a partition. -/
def bucketOf (s : State) (t : BitVec 3) (p key : Nat) : Nat := partFirst s t p + key % partSize s t p

/-- The entries of a chain from an entry; the fuel bounds a chain that direct writes closed. The code 0x1FFF ends it, and stands for
entry 8,191 where that entry is in the chain and has not come yet, as `last` says (DEDUCED, log 35). -/
def chainFrom (s : State) (t : BitVec 3) : Nat → Bool → Nat → List Nat
  | 0, _, _ => []
  | fuel + 1, last, e =>
    if e = 0x1FFF then (if last then e :: chainFrom s t fuel false (pfxField s t e 0x10 15 3) else [])
    else if 8192 ≤ e then []
    else e :: chainFrom s t fuel last (pfxField s t e 0x10 15 3)

/-- The entries of a bucket of a partition. -/
def bucketList (s : State) (t : BitVec 3) (p b : Nat) : List Nat :=
  chainFrom s t 8192 (pfxOn s t 0x1FFF && decide (bucketOf s t p (pfxField s t 0x1FFF 0 63 0) = b)) (readNat s (bucketAdr t b) 4)

/-- A probe: key, model, depth, parent and token bytes. -/
structure Probe where
  key : Nat
  model : Nat
  depth : Nat
  parent : Nat
  tokens : List Byte
  deriving DecidableEq, Repr

/-- The probe of block `i` of a request, in a probe block of memory. -/
def probeAt (s : State) (t : BitVec 3) (n a i parent : Nat) : Probe :=
  ⟨readNat s a 8, reqModel s t n, i, parent, readBytes s (a + 0x40) 64⟩

/-- Are a probe's reserved bytes zero? -/
def probeOk (s : State) (a : Nat) : Bool := (readBytes s (a + 8) 0x38).all (fun b => decide (b = 0))

/-- Does a valid entry match a probe? -/
def probeHits (s : State) (t : BitVec 3) (q : Probe) (e : Nat) : Bool :=
  pfxOn s t e && decide (pfxField s t e 0 63 0 = q.key) && decide (pfxField s t e 8 32 17 = q.model) &&
    decide (pfxField s t e 8 48 33 = q.depth) && decide (pfxField s t e 8 61 49 = q.parent) &&
    decide (readBytes s (pfxAdr t e + 0x40) 64 = q.tokens)

/-- The matching entry of a probe in its bucket, and the collisions there. -/
def examine (s : State) (t : BitVec 3) (p : Nat) (q : Probe) : Option Nat × Nat :=
  let l := bucketList s t p (bucketOf s t p q.key)
  (l.find? (probeHits s t q),
    (l.filter (fun e => pfxOn s t e && decide (pfxField s t e 0 63 0 = q.key) && !probeHits s t q e)).length)

/-- COLL grows by the collisions met, saturating. -/
def countColl (s : State) (t : BitVec 3) (p k : Nat) : State :=
  if k = 0 then s else putField s (partAdr t p) 15 0 (min (partField s t p 15 0 + k) 0xFFFF)

/-! ### Lookup (R128) -/

/-- The leading entries of a request's table that a lookup in progress has set already. -/
def adopted (s : State) (t : BitVec 3) (n : Nat) : Nat :=
  (List.range 64).foldl (fun k e => if k = e ∧ entV (entryGet s t n e) = true then k + 1 else k) 0

/-- The page of an index entry. -/
def pfxPage (s : State) (t : BitVec 3) (e : Nat) : Nat := readNat s (pfxAdr t e + 0x18) 8

/-- Bring an index entry's page into TM: `none` where it is there, else the state with its page-in begun. It is never assisted:
no KVPOOL function switches an index entry (DEDUCED, log 34). -/
def pageInIndex (s : State) (t : BitVec 3) (e : Nat) : Option State :=
  if entTier (pfxPage s t e) = 0 then none
  else
    match pagingOf t (.index e) s.pageIns with
    | some g => some (feedPageIn s g)
    | none => some (startPageIn s t (pfxField s t e 0x20 5 0) (.index e) [] false)

/-- One share more of an index entry. -/
def addShare (s : State) (t : BitVec 3) (e : Nat) : State := setPfx s t e 0x10 47 32 (pfxField s t e 0x10 47 32 + 1)

/-- The entry word that a request takes from an index entry: without TENT, pins and paging marks. -/
def sharedWord (x : Nat) : Nat := 2 ^ 63 + 2 ^ 59 + entTier x * 2 ^ 62 + entBase x * 2 ^ 16 + bits x 15 0

/-- Finish a lookup with `m` matches. -/
def lookDone (s : State) (t : BitVec 3) (n m : Nat) : CmdOut :=
  let s1 := setReq (setReq s t n 8 63 32 (16 * m)) t n 8 31 0 (16 * m)
  .done (setReq s1 t n 0x10 63 48 m) .ok m

/-- Test the probes from `i` on. `counted` says that the collisions of probe `i` were counted at an earlier attempt. -/
def lookFrom (t : BitVec 3) (n a : Nat) : Nat → Nat → Nat → Bool → State → CmdOut
  | 0, i, _, _, s => lookDone s t n i
  | k + 1, i, parent, counted, s =>
    let p := reqPart s t n
    let (hit, coll) := examine s t p (probeAt s t n (a + 128 * i) i parent)
    let s1 := if counted then s else countColl s t p coll
    match hit with
    | none => lookDone s1 t n i
    | some e =>
      match needBlock s1 t n 0 with
      | none => .done s1 .full 0
      | some s2 =>
        match pageInIndex s2 t e with
        | some s3 => .wait s3 true
        | none => lookFrom t n a k (i + 1) e false (entrySet (addShare s2 t e) t n i (sharedWord (pfxPage s2 t e)))

/-- The entry that matched probe `i - 1` of a lookup in progress: the valid entry that holds the page set last. -/
def lookParent (s : State) (t : BitVec 3) (n i : Nat) : Nat :=
  if i = 0 then 0x1FFF
  else
    let x := entryGet s t n (i - 1)
    ((pfxValid s t).find? (fun e => pfxHolds s t (reqPool s t n) (entTier x) (entBase x) e && inPart s t (reqPart s t n) e)).getD 0x1FFF

/-- PFXLOOK (R128, R339): a lookup that pages a page in goes on from where it stood. -/
def perfPfxlook (s : State) (j : Job) (c : Cmd) : CmdOut :=
  named s j c c.a true (fun s t n =>
    let k := bits c.c.toNat 6 0
    if reqWin s t n = true ∨ reqTlen s t n ≠ 0 then .done s .state 0
    else if partOk s t n = false then .done s .rights 0
    else if (List.range k).any (fun i => !probeOk s (c.block + 128 * i)) then .done s .badfield 0
    else
      let i := adopted s t n
      lookFrom t n c.block (k - i) i (lookParent s t n i) c.posted s)

/-! ### Insertion (R129, R130) -/

/-- Why an insertion fails before it is performed, if it does (R129, R339). -/
def insertStatus (s : State) (t : BitVec 3) (n i a : Nat) : Option Status :=
  let x := pageGet s t n i
  let y := pageGet s t n (i - 1)
  let live := livePages s t n
  if partOk s t n = false then some .rights
  else if probeOk s a = false then some .badfield
  else if live.contains i = false ∨ entShr x = true ∨ entTier x = 1 then some .badpage
  else if reqLen s t n < 16 * (i + 1) then some .notfull
  else if 0 < i ∧ (live.contains (i - 1) = false ∨ entShr y = false ∨
      ((pfxValid s t).any (fun e => pfxHolds s t (reqPool s t n) (entTier y) (entBase y) e && inPart s t (reqPart s t n) e)) = false) then
    some .noparent
  else none

/-- The victims of a partition with their frame ages, in ascending order (R130). -/
def pfxVictims (s : State) (t : BitVec 3) (p : Nat) : List (Nat × Nat) :=
  ((pfxValid s t).filter (fun e => inPart s t p e && decide (pfxField s t e 0x10 63 16 = 0))).map (fun e =>
    (e, (frameLast s + 2 ^ 16 - bits (pfxPage s t e) 15 0) % 2 ^ 16))

/-- The victim of greatest age, ties to the lowest entry. -/
def oldestEntry : List (Nat × Nat) → Option (Nat × Nat)
  | [] => none
  | x :: l =>
    match oldestEntry l with
    | none => some x
    | some y => if x.2 < y.2 ∨ (x.2 = y.2 ∧ y.1 < x.1) then some y else some x

/-- The element of a list that stands before another. -/
def elemBefore (e : Nat) : List Nat → Option Nat
  | a :: b :: l => if b = e then some a else elemBefore e (b :: l)
  | _ => none

/-- Take an entry out of its bucket. -/
def unlinkEntry (s : State) (t : BitVec 3) (p e : Nat) : State :=
  let b := bucketOf s t p (pfxField s t e 0 63 0)
  let l := bucketList s t p b
  let next := elemBefore e l.reverse
  match elemBefore e l with
  | some q => setPfx s t q 0x10 15 3 (next.getD 0x1FFF)
  | none => if l.head? = some e then writeNat s (bucketAdr t b) 4 (next.getD 0xFFFF_FFFF) else s

/-- Change CHILD of the parent of an entry of some depth, where it has one: at depth 0 it has none. -/
def bumpChild (s : State) (t : BitVec 3) (depth parent : Nat) (up : Bool) : State :=
  if depth = 0 then s
  else
    let k := pfxField s t parent 0x10 31 16
    setPfx s t parent 0x10 31 16 (if up then k + 1 else k - 1)

/-- Free what an index entry holds; a page under eviction is freed when its copy ends. -/
def freeIndexPage (s : State) (t : BitVec 3) (e : Nat) : State :=
  let x := pfxPage s t e
  if (pagingOf t (.index e) s.evicts).isSome then { s with evicts := orphan t (.index e) s.evicts }
  else freePage s t (pfxField s t e 0x20 5 0) (entTier x) (entBase x)

/-- Remove a victim (R130): its bytes return to their reset contents. -/
def removeEntry (s : State) (t : BitVec 3) (p e : Nat) : State :=
  let s1 := bumpChild (freeIndexPage (unlinkEntry s t p e) t e) t (pfxField s t e 8 48 33) (pfxField s t e 8 61 49) false
  { s1 with mem := cellsClear s1.mem (pfxAdr t e) 0x80 }

/-- A free entry of a partition, the lowest, or one that a victim's removal frees (R129, R404). -/
def claimEntry (s : State) (t : BitVec 3) (p : Nat) : Option (Nat × State) :=
  let all := (List.range (partSize s t p)).map (fun i => partFirst s t p + i)
  match all.find? (fun e => decide (e < 8192) && !pfxOn s t e) with
  | some e => some (e, s)
  | none =>
    match oldestEntry (pfxVictims s t p) with
    | some (e, _) => some (e, removeEntry s t p e)
    | none => none

/-- Write a new entry at the head of its bucket. -/
def writeEntry (s : State) (t : BitVec 3) (p e : Nat) (q : Probe) (pool page : Nat) : State :=
  let a := pfxAdr t e
  let b := bucketAdr t (bucketOf s t p q.key)
  let head := readNat s b 4
  let s1 := writeNat s a 8 q.key
  let s2 := writeNat s1 (a + 8) 8 (2 ^ 62 + q.parent * 2 ^ 49 + q.depth * 2 ^ 33 + q.model * 2 ^ 17)
  let s3 := writeNat s2 (a + 0x10) 8 (2 ^ 32 + (if 8192 ≤ head then 0x1FFF else head) * 8)
  let s4 := writeNat s3 (a + 0x18) 8 page
  let s5 := writeNat s4 (a + 0x20) 8 pool
  let s6 := writeBytes s5 (a + 0x40) q.tokens
  bumpChild (writeNat s6 b 4 e) t q.depth q.parent true

/-- Perform an insertion whose checks passed (R129). One of a page that an eviction has marked waits for its switch and then answers
BADPAGE (DEDUCED, log 138). -/
def insertNow (s : State) (t : BitVec 3) (n i a : Nat) : CmdOut :=
  let p := reqPart s t n
  let pool := reqPool s t n
  let x := pageGet s t n i
  let y := pageGet s t n (i - 1)
  let parent :=
    if i = 0 then 0x1FFF
    else ((pfxValid s t).find? (fun e => pfxHolds s t pool (entTier y) (entBase y) e && inPart s t p e)).getD 0x1FFF
  let q := probeAt s t n a i parent
  if entEvic x then .wait s false
  else
    let (hit, coll) := examine s t p q
    match hit with
    | some e =>
      match pageInIndex s t e with
      | some s1 => .wait s1 true
      | none =>
        let s1 := addShare (countColl s t p coll) t e
        let s2 := pageSet s1 t n i (setBits (setBits (sharedWord (pfxPage s t e)) 56 49 (entPin x)) 60 60 (bits x 60 60))
        let s3 := rewriteImages s2 t n i
        .done (sweepMerged { s3 with merged := s3.merged ++ [(t, n, pageKeyOf s t pool (entTier x) (entBase x))] }) .merged e
    | none =>
      let s1 := countColl s t p coll
      if 0 < coll then .done s1 .collide 0
      else
        match claimEntry s1 t p with
        | none => .done s1 .full 0
        | some (e, s2) =>
          let s3 := writeEntry s2 t p e q pool (sharedWord x)
          .done (pageSet s3 t n i (setBits x 59 59 1)) .inserted e

/-- PFXINS (R129, R339, R379): in assisted mode it posts PFX_INSERT once and stays pending. A command that waits for a page-in
of the entry it merges with holds its place too. -/
def perfPfxins (s : State) (j : Job) (c : Cmd) : CmdOut :=
  named s j c c.a true (fun s t n =>
    let i := bits c.c.toNat 31 0
    let assisted := c.mode.getD ((getTower s t).fmr.getLsbD 1)
    if c.posted ∧ assisted then .wait s true
    else
      match insertStatus s t n i c.block with
      | some x => .done s x 0
      | none =>
        if assisted then .wait (postEvent s t 0x52 c.a (word i) (reqPart s t n) 0xFF) true
        else insertNow s t n i c.block)

/-- PFXPIN (R130, R339). -/
def perfPfxpin (s : State) (j : Job) (c : Cmd) : CmdOut :=
  named s j c c.a true (fun s t n =>
    let e := bits c.b.toNat 12 0
    let k := pfxField s t e 0x10 63 48
    let down := bit c.b.toNat 63
    if partOk s t n = false then .done s .rights 0
    else if inPart s t (reqPart s t n) e = false ∨ pfxOn s t e = false then .done s .range 0
    else if k = (if down then 0 else 0xFFFF) then .done s .limit 0
    else
      let m := if down then k - 1 else k + 1
      .done (setPfx s t e 0x10 63 48 m) .ok m)

end Sys2Proof.Machine
end

