-- ==== Sys2Proof/Machine/Revoke.lean ====
section
/-!
DEFINITION. Writing the object tables and invalidating translations: OTW, XINV and the ends of both (spec 04_translation.md R79 to
R83, R87, R88).
-/
namespace Sys2Proof.Machine

/-! ### Every task's registers -/

/-- Change the registers of every task, on a core or saved. -/
def mapTasks (s : State) (f : Task → Task) : State :=
  { s with
    cores := s.cores.map (fun c => (c.1, { c.2 with task := f c.2.task }))
    tasks := s.tasks.map (fun t => (t.1, f t.2)) }

/-- Mark a record that was loaded from an entry as revoked. -/
def revokeRec (ctx : BitVec 12) (index : BitVec 16) (r : Rec) : Rec :=
  if r.loaded ∧ r.ctx = ctx.toNat ∧ r.index = index.toNat then { r with revoked := true } else r

/-- The same for a result on its way. -/
def revokeDest (ctx : BitVec 12) (index : BitVec 16) (d : Dest) : Dest :=
  match d with
  | .record r x => .record r (revokeRec ctx index x)
  | d => d

/-- The same for the end of a copy. -/
def revokeEnd (ctx : BitVec 12) (index : BitVec 16) (e : CopyEnd) : CopyEnd := { e with recBits := revokeRec ctx index e.recBits }

/-- Change the ends of a job. -/
def mapEnds (f : CopyEnd → CopyEnd) (j : Job) : Job :=
  match j.kind with
  | .copy src dst rows len w time => { j with kind := .copy (f src) (f dst) rows len w time }
  | .pxfer src chip gs len flag => { j with kind := .pxfer (f src) chip gs len flag }
  | .cmd _ => j

/-- Revoke every record loaded from an entry, in registers, on the way to them and in copies that wait (R83, R88). -/
def revokeEntry (s : State) (ctx : BitVec 12) (index : BitVec 16) : State :=
  let s1 := mapTasks s (fun t =>
    { t with
      b := t.b.map (fun r => (r.1, revokeRec ctx index r.2))
      due := t.due.map (fun d => { d with dst := revokeDest ctx index d.dst }) })
  { s1 with jobs := s1.jobs.map (fun j => if j.waiting then mapEnds (revokeEnd ctx index) j else j) }

/-! ### The object table (R79 to R82) -/

/-- The flat address of an entry of a context's table on a tower, if it has one. -/
def entryFlat (s : State) (t : BitVec 3) (ctx : BitVec 12) (index : BitVec 16) : Option Nat :=
  let r := (mapGet 0 (getTower s t).otroot ctx.toNat).toNat
  if bit r 63 then some (tmFlat (bits r 62 60) (bits r 35 21 * 2 ^ 21) + index.toNat * 32) else none

/-- Are the reserved bits of a staged entry zero? -/
def entryReserved (e : Nat) : Bool :=
  decide (bits e 78 76 = 0) && decide (bits e 66 64 = 0) && decide (bits e 18 0 = 0)

/-- Does BASE stay within its space's width? -/
def baseFits (b : Rec) : Bool :=
  if b.space = 0 then decide (b.base < 2 ^ 20) else if b.space = 1 then decide (b.base < 2 ^ 32) else true

/-- Does a record's range stay inside its space (R81, 0x04)? -/
def extentOk (b : Rec) : Bool :=
  let last := b.base + b.extent - 1
  decide (b.extent ≠ 0) &&
    (if b.space = 0 then decide (last < 2 ^ 20)
     else if b.space = 1 then gsValid b.base && decide (last < gsEnd b.base)
     else decide (last < 2 ^ 64) && canonical (word b.base) && canonical (word last) && decide (bit b.base 63 = bit last 63))

/-- Are the alignments of a record kept (R81, 0x05)? -/
def recAligned (b : Rec) : Bool :=
  let u := alignUnit b.fmt
  decide (b.base % u = 0) && decide (b.stride1 % u = 0) && decide (b.stride2 % u = 0) &&
    (decide (b.tshape = 0) ||
      (decide (b.base % 64 = 0) && decide (b.stride1 % 64 = 0) && decide (64 * 2 ^ (b.tshape - 1) ≤ b.stride1)))

/-- Is a GS range open to the owning context (R81, 0x06)? -/
def shareOpen (ctx : BitVec 12) (b : Rec) : Bool :=
  if b.space ≠ 1 ∨ bit b.base 28 = false ∨ ctx = 0 then true
  else
    let lo := bits b.base 27 0
    let hi := lo + b.extent - 1
    decide (poolShare lo = .stream) && decide (poolShare hi = .stream) && decide (lo / 0x8000 = hi / 0x8000)

/-- The status of writing a staged entry over one of a generation (R81). -/
def otwStatus (ctx : BitVec 12) (e : Nat) (gen : Nat) : Nat :=
  let b : Rec := ⟨BitVec.ofNat 256 e, true, false⟩
  if bit e 19 = false then (if entryReserved e = false then 1 else if gen = 0xFFFF then 7 else 0)
  else if entryReserved e = false ∨ baseFits b = false then 1
  else if b.space = 3 ∨ 4 ≤ b.tag ∨ (b.tag ≠ 0 ∧ b.space ≠ 2) then 2
  else if b.fmt = 15 ∨ b.bmode = 3 ∨ b.tshape = 7 then 3
  else if extentOk b = false then 4
  else if recAligned b = false then 5
  else if shareOpen ctx b = false then 6
  else if gen = 0xFFFF then 7
  else 0

/-- Write an entry with the next generation, its own INDEX and CTX, and revoke the records loaded from it (R83). -/
def putEntry (s : State) (a : Nat) (ctx : BitVec 12) (index : BitVec 16) (e : Nat) : State :=
  let gen := bits (readNat s a 32) 63 48
  let v := setBits (setBits (setBits e 63 48 (min (gen + 1) 0xFFFF)) 47 32 index.toNat) 31 20 ctx.toNat
  revokeEntry (storeQuiet s a (leBytes 32 v)) ctx index

/-- An operation that a register write begins: done, refused as ILLEGAL_OPERAND, or a stall of the writer (R6, R33). -/
inductive RegAct where
  | done (s : State)
  | illegal
  | priv
  | stall
  deriving DecidableEq, Repr

/-- What an event row of a register write comes to: nothing where the write is refused or waits. -/
def RegAct.orElse (s : State) : RegAct → Host.Outcome State Fault Refusal
  | .done s1 => .next s1
  | .illegal => .next s
  | .priv => .next s
  | .stall => .next s

/-- OTW (R81 to R83). -/
def writeOtw (s : State) (t : BitVec 3) (v : Word) : RegAct :=
  let x := v.toNat
  let w := getTower s t
  if bits x 62 28 ≠ 0 then .illegal
  else if w.otPend.isSome then .stall
  else if bit x 63 = false then .done s
  else
    let ctx := BitVec.ofNat 12 (bits x 27 16)
    let index := BitVec.ofNat 16 x
    let staged := ((List.range 4).map (fun i => (w.otd.getD i 0).toNat * 2 ^ (64 * i))).foldl (· + ·) 0
    let answer := fun (s : State) (st : Nat) (p : Option OtPend) =>
      RegAct.done (modTower s t (fun w => { w with otSt := BitVec.ofNat 8 st, otPend := p }))
    match entryFlat s t ctx index with
    | none => answer s 8 none
    | some a =>
      let st := otwStatus ctx staged (bits (readNat s a 32) 63 48)
      if st ≠ 0 then answer s st none
      else answer { putEntry s a ctx index staged with nextId := s.nextId + 1 } 0 (some ⟨ctx, index, s.nextId⟩)

/-- OTW as a step of its own. -/
def execOtw (t : BitVec 3) (v : BitVec 64) (s : State) : Host.Outcome State Fault Refusal := (writeOtw s t v).orElse s

/-- Was an end of a copy checked through the records of an entry? -/
def endOfEntry (ctx : BitVec 12) (index : BitVec 16) (e : CopyEnd) : Bool :=
  decide (e.recBits.ctx = ctx.toNat) && decide (e.recBits.index = index.toNat)

/-- Does some end of a job satisfy a test? -/
def anyEnd (f : CopyEnd → Bool) (j : Job) : Bool :=
  match j.kind with
  | .copy src dst _ _ w _ =>
    f src || f dst ||
      (match w with
       | some e => f e
       | none => false)
  | .pxfer src _ _ _ _ => f src
  | .cmd c => c.ends.any f

/-- Does an epoch that some member configured before a time stamp still have slices to read, one of whose sources satisfies a test? -/
def busInUse (s : State) (stamp : Nat) (f : CopyEnd → Bool) : Bool :=
  (busEpochs s).any (fun e => decide (e.2.stamp < stamp) && e.2.ends.any f)

/-- Is an access that passed its check through a revoked record still to be performed (R83)? -/
def recInUse (s : State) (p : OtPend) : Bool :=
  s.acc.any (fun x => decide (x.id < p.stamp) && decide (x.recd = some (p.ctx, p.index))) ||
    s.jobs.any (fun j => decide (j.id < p.stamp) && !j.waiting && anyEnd (endOfEntry p.ctx p.index) j) ||
    busInUse s p.stamp (endOfEntry p.ctx p.index)

/-- OTW_BUSY_CLEAR (R83). -/
def execOtwBusyClear (t : BitVec 3) (s : State) : Host.Outcome State Fault Refusal :=
  match (getTower s t).otPend with
  | none => .next s
  | some p => .next (if recInUse s p then s else modTower s t (fun w => { w with otPend := none }))

/-! ### Invalidation (R87, R88) -/

/-- Clear a live handle that an invalidation names. -/
def xinvHandle (x : XinvPend) (h : Handle) : Handle :=
  if h.valid ∧ xinvHits x (h.field 113 102) (h.field 51 16) h.size then { h with bits := h.bits &&& ~~~(1#128 <<< 127) } else h

/-- The same for a result on its way. -/
def xinvDest (x : XinvPend) (d : Dest) : Dest :=
  match d with
  | .handle r h => .handle r (xinvHandle x h)
  | d => d

/-- The same for the end of a copy. -/
def xinvEnd (x : XinvPend) (e : CopyEnd) : CopyEnd := { e with hnd := e.hnd.map (fun h => (h.1, xinvHandle x h.2)) }

/-- The translation epoch of a context; the place 4,096 counts the invalidations of all contexts (DESIGN CHOICE, log 3). -/
def epochOf (s : State) (ctx : BitVec 12) : Nat := mapGet 0 s.pkg.epochs ctx.toNat + mapGet 0 s.pkg.epochs 4096

/-- What an invalidation clears on a core: cached translations and live handles. -/
def xinvCore (x : XinvPend) (c : CoreSt) : CoreSt :=
  { c with
    tc := c.tc.filter (fun e => !xinvHits x e.ctx.toNat e.vpage.toNat e.size.toNat)
    task := { c.task with
      h := c.task.h.map (fun h => (h.1, xinvHandle x h.2))
      due := c.task.due.map (fun d => { d with dst := xinvDest x d.dst }) } }

/-- What becomes of a walk that an invalidation meets: one in progress keeps it until it knows its page, a failure not yet learnt of is
found again. -/
def xinvWalk (x : XinvPend) (w : Walk) : Option Walk :=
  if w.done.isNone then some { w with met := x :: w.met }
  else if xinvHits x w.ctx.toNat w.region.toNat 0 then none
  else some w

/-- The actions of an invalidation (R87): cached translations go, live handles clear, walks fill no cache, the epochs rise. -/
def invalidate (s : State) (x : XinvPend) : State :=
  let key := if x.scope = 2 then 4096 else x.ctx.toNat
  let s1 := { s with
    cores := s.cores.map (fun (c : Nat × CoreSt) => (c.1, xinvCore x c.2))
    jobs := s.jobs.map (fun (j : Job) => if j.waiting then mapEnds (xinvEnd x) j else j)
    walks := s.walks.filterMap (xinvWalk x)
    nextId := s.nextId + 1 }
  { s1 with pkg := { s1.pkg with
      epochs := mapPut s1.pkg.epochs key (mapGet 0 s1.pkg.epochs key + 1)
      xinv := some { x with stamp := s.nextId } } }

/-- XINV (R87). -/
def writeXinv (s : State) (v : Word) : RegAct :=
  let x := v.toNat
  if bits x 58 52 ≠ 0 ∨ bits x 15 12 ≠ 0 ∨ bits x 62 61 = 3 ∨ bits x 60 59 = 3 then .illegal
  else if s.pkg.xinv.isSome then .stall
  else if bit x 63 = false then .done s
  else
    .done (invalidate s
      ⟨bits x 62 61, BitVec.ofNat 2 (bits x 60 59), BitVec.ofNat 36 (bits x 51 16), BitVec.ofNat 12 x, 0⟩)

/-- XINV_PAGE: the write with SCOPE 0. -/
def execXinvPage (_t : BitVec 3) (v : BitVec 64) (s : State) : Host.Outcome State Fault Refusal :=
  if bits v.toNat 62 61 = 0 then (writeXinv s v).orElse s else .next s

/-- XINV_CONTEXT: the write with SCOPE 1. -/
def execXinvContext (_t : BitVec 3) (v : BitVec 64) (s : State) : Host.Outcome State Fault Refusal :=
  if bits v.toNat 62 61 = 1 then (writeXinv s v).orElse s else .next s

/-- XINV_ALL: the write with SCOPE 2. -/
def execXinvAll (_t : BitVec 3) (v : BitVec 64) (s : State) : Host.Outcome State Fault Refusal :=
  if bits v.toNat 62 61 = 2 then (writeXinv s v).orElse s else .next s

/-- Was an end of a copy checked through a handle that an invalidation names? -/
def endOfXinv (x : XinvPend) (e : CopyEnd) : Bool :=
  match e.hnd with
  | some (_, h) => xinvHits x (h.field 113 102) (h.field 51 16) h.size
  | none => false

/-- Is an access that passed its check through a cleared handle still to be performed (R87)? -/
def hndInUse (s : State) (x : XinvPend) : Bool :=
  s.acc.any (fun a => decide (a.id < x.stamp) &&
    (match a.hnd with
     | some (ctx, vpage, size) => xinvHits x ctx.toNat vpage.toNat size.toNat
     | none => false)) ||
    s.jobs.any (fun j => decide (j.id < x.stamp) && !j.waiting && anyEnd (endOfXinv x) j) ||
    busInUse s x.stamp (endOfXinv x)

/-- XINV_DONE (R87). -/
def execXinvDone (s : State) : Host.Outcome State Fault Refusal :=
  match s.pkg.xinv with
  | none => .next s
  | some x => .next (if hndInUse s x then s else { s with pkg := { s.pkg with xinv := none } })

end Sys2Proof.Machine
end

