-- ==== Sys2Proof/Machine/Watch.lean ====
section
/-!
DEFINITION. The clocks, launches, the watch unit and the timetable (spec 09_time_and_watch.md R175 to R183 and R188 to R195,
15_task_sequence_system.md R343, R344, 16_scheduler.md R359, R360).
-/
namespace Sys2Proof.Machine

/-! ### Clocks (R175, R179) -/

/-- Device time in nanoseconds. -/
def ptpt (s : State) : Nat := (s.pkg.tofs.toNat + s.pkg.cyc.toNat * 5 / 8) % 2 ^ 64

/-- The frame period in force. -/
def fper (s : State) : Nat := bits s.pkg.frmNow.toNat 63 32
/-- The ticks of a frame in force. -/
def tpf (s : State) : Nat := bits s.pkg.frmNow.toNat 12 0

/-- The current tick of the frame: the last whose start has come. -/
def curTick (s : State) : Nat :=
  min ((s.pkg.cyc.toNat - s.pkg.fstart.toNat) / (fper s / tpf s)) (tpf s - 1)

/-- The low 32 bits of the frame number. -/
def frame32 (s : State) : Nat := s.pkg.frame.toNat % 2 ^ 32

/-! ### Launches (R142) -/

/-- Hand a launch to a tower's dispatcher; the release tick is the present one. -/
def addLaunch (s : State) (t : BitVec 3) (ctx : BitVec 12) (index : Nat) (coord : BitVec 48) (arg : Word) (path : Path)
    (source : Source) (reply : Option (Agent × BitVec 32 × Nat × Nat)) (after : List Nat) : State :=
  let l : Launch :=
    { id := s.nextId, ctx := ctx, index := index, coord := coord, arg := arg, path := path, source := source,
      release := s.pkg.cyc, reply := reply, after := after }
  modTower { s with nextId := s.nextId + 1 } t (fun w => { w with launches := w.launches ++ [l] })

/-! ### Watch entries (R188, R191) -/

/-- A field of a watch entry. -/
def watchGet (s : State) (t : BitVec 3) (e off hi lo : Nat) : Nat := getField s (watchAdr t e + off) hi lo
/-- Replace a field of a watch entry. -/
def watchPut (s : State) (t : BitVec 3) (e off hi lo v : Nat) : State := putField s (watchAdr t e + off) hi lo v
/-- ST. -/
def watchSt (s : State) (t : BitVec 3) (e : Nat) : Nat := watchGet s t e 0x28 63 62
/-- MODE. -/
def watchMode (s : State) (t : BitVec 3) (e : Nat) : Nat := watchGet s t e 0 62 61

/-- Launch an instance of a watch entry, with FIRSTG as it stands (R191). SCOPE adds no edge: the task follows the triggering store, and
with it, in the one order of R93, all that the store's release covers, inside SCOPE or not (R99, R108) (DEDUCED, log 119). -/
def watchLaunch (s : State) (t : BitVec 3) (e : Nat) : State :=
  let coord := watchGet s t e 0x18 31 0 * 2 ^ 16 + watchGet s t e 0x28 15 0
  addLaunch s t (BitVec.ofNat 12 (watchGet s t e 0 55 44)) (watchGet s t e 0 43 32) (BitVec.ofNat 48 coord)
    (word (readNat s (watchAdr t e + 0x20) 8)) .watch (.watch e) none []

/-- The granule of a trigger's first byte (R191). -/
def trigGranule (s : State) (t : BitVec 3) (r : Trig) : Nat := (r.first - watchBase s t r.entry) / 64

/-- A runaway (R193): the entry is muted and the trap records it. -/
def runaway (s : State) (t : BitVec 3) (r : Trig) : State :=
  let s1 := watchPut s t r.entry 0x28 60 60 1
  let s2 := if (getTower s t).fmr.getLsbD 5 then s1 else modTower s1 t (fun w => { w with mutes := w.mutes ++ [(r.entry, s.pkg.frame)] })
  postTrap s2 t .watchRunaway (word (if isGs r.start then r.start else r.start - tmFlat t.toNat 0)) s.pkg.frame r.entry

/-- OnTrigger (R191, R192). -/
def onTrigger (s : State) (t : BitVec 3) (r : Trig) : State :=
  let e := r.entry
  if watchGet s t e 0x28 60 60 = 1 then watchPut s t e 0x28 31 16 (satInc 16 (watchGet s t e 0x28 31 16))
  else
    let n := satInc 16 (watchGet s t e 0x28 47 32)
    let s1 := watchPut s t e 0x28 47 32 n
    let st := watchSt s t e
    let mode := watchMode s t e
    let first := fun (s : State) => watchPut s t e 0x28 15 0 (trigGranule s t r)
    if watchGet s t e 0 31 16 < n then runaway s1 t r
    else if mode = 2 then watchLaunch (first s1) t e
    else if st = 0 then watchPut (watchLaunch (first s1) t e) t e 0x28 63 62 1
    else if st = 1 then s1
    else if watchGet s t e 0x28 61 61 = 1 then s1
    else
      watchPut (modTower s1 t (fun w => { w with folds := mapPut w.folds e (trigGranule s t r) })) t e 0x28 61 61 1

/-- Forget the trigger folded into a relaunch. -/
def dropFold (s : State) (t : BitVec 3) (e : Nat) : State := modTower s t (fun w => { w with folds := mapDel w.folds e })

/-- OnPlaced, at the first placement of an instance (R191). -/
def onPlaced (s : State) (t : BitVec 3) (e : Nat) : State := watchPut s t e 0x28 63 62 (if watchMode s t e = 1 then 2 else 0)

/-- OnEnded, at the end of an instance (R191). -/
def onEnded (s : State) (t : BitVec 3) (e : Nat) : State :=
  if watchMode s t e ≠ 1 then s
  else if watchGet s t e 0x28 61 61 = 1 then
    let s1 := watchPut s t e 0x28 61 61 0
    let s2 := watchPut s1 t e 0x28 15 0 (mapGet 0 (getTower s t).folds e)
    watchPut (watchLaunch (dropFold s2 t e) t e) t e 0x28 63 62 1
  else watchPut s t e 0x28 63 62 0

/-- WATCH_TRIGGER (R191): the oldest trigger at a watch unit. -/
def execWatchTrigger (t : BitVec 3) (s : State) : Host.Outcome State Fault Refusal :=
  match (getTower s t).trigs with
  | [] => .next s
  | r :: l => .next (onTrigger (modTower s t (fun w => { w with trigs := l })) t r)

/-! ### Installing and removing a watch (R189) -/

/-- The home whose comparators a range uses: a scratchpad, a tower's pool, or a spire channel. -/
def comparatorHome (a : Nat) : Nat :=
  if isGs a then (if bit a 28 then 2 ^ 20 + a / 2 ^ 29 else a / 2 ^ 22) else 2 ^ 21 + tmTower a * 32 + tmSpire a

/-- Are HCW's slots a window now? -/
def hcwOpen (s : State) (t : BitVec 3) : Bool := (getTower s t).hcw.getLsbD 63

/-- Does a range of GS lie where a watch may (R189)? -/
def watchGsOk (s : State) (t : BitVec 3) (a n : Nat) : Bool :=
  let off := bits a 27 0
  gsValid a && decide (a / 2 ^ 29 = t.toNat) && decide (a + n ≤ gsEnd a) &&
    (!bit a 28 ||
      (decide (off + n ≤ 0x1800000) &&
        (decide (off / 0x8000 = (off + n - 1) / 0x8000) || (hcwOpen s t && decide (0x17C0000 ≤ off)))))

/-- The status of installing an image of eight words (R189). -/
def watchStatus (s : State) (t : BitVec 3) (w : List Nat) : Status :=
  let w0 := w.getD 0 0
  let base := w.getD 1 0
  let w2 := w.getD 2 0
  let len := bits w2 21 0
  let tm := decide (bits w0 57 56 = 1)
  if bits w0 62 61 = 3 ∨ 5 ≤ bits w0 60 58 ∨ 2 ≤ bits w0 57 56 ∨ bits w0 31 16 = 0 ∨ bits w0 15 0 ≠ 0 ∨ bits w2 63 22 ≠ 0 ∨
      bits (w.getD 3 0) 63 32 ≠ 0 then .badfield
  else if base % 64 ≠ 0 ∨ len % 64 ≠ 0 ∨ len < 64 ∨ 2 ^ 21 < len ∨
      (if tm then 2 ^ 36 ≤ base ∨ base / 2 ^ 21 ≠ (base + len - 1) / 2 ^ 21
       else 2 ^ 32 ≤ base ∨ watchGsOk s t base len = false) then .range
  else
    let home := comparatorHome (if tm then tmFlat t.toNat base else base)
    if 64 ≤ ((watchesOn s t).filter (fun e => comparatorHome (watchBase s t e) = home)).length ∨ 4096 ≤ (watchesOn s t).length then .full
    else .ok

/-- What descends from a watch entry no longer does. -/
def dropWatchSource (e : Nat) (x : Source) : Source := if x = .watch e then .plain else x

/-- A new entry takes the place of an old one: pending triggers and instances of the old one are no longer its own. -/
def freshWatch (s : State) (t : BitVec 3) (e : Nat) : State :=
  let one := fun (k : Task) => if k.home = t then { k with source := dropWatchSource e k.source } else k
  let keep := fun (l : List (Nat × Nat)) => l.filter (fun h => h ≠ (t.toNat, e))
  let s1 := { s with
    acc := s.acc.map (fun x => { x with hits := keep x.hits })
    jobs := s.jobs.map (fun j => { j with parts := j.parts.map (fun p => { p with hits := keep p.hits }) }) }
  modTower (mapTasks s1 one) t (fun w =>
    { w with
      trigs := w.trigs.filter (fun r => r.entry ≠ e)
      landing := w.landing.map (fun f => { f with hits := keep f.hits })
      mutes := w.mutes.filter (fun m => m.1 ≠ e)
      folds := mapDel w.folds e
      away := w.away.filter (fun x => x.1 ≠ e)
      launches := w.launches.map (fun l => { l with source := dropWatchSource e l.source }) })

/-- Install an image at the lowest free index (R189, R343). -/
def watchInstall (s : State) (t : BitVec 3) (w : List Nat) : Status × Nat × State :=
  match watchStatus s t w with
  | .ok =>
    let e := firstGap 0 (watchesOn s t)
    let ws := [setBits (w.getD 0 0) 63 63 1, w.getD 1 0, w.getD 2 0, w.getD 3 0, w.getD 4 0, 0, 0, 0]
    (.ok, e, storeQuiet (freshWatch s t e) (watchAdr t e) (ws.flatMap (leBytes 8)))
  | st => (st, 0, s)

/-- Disable an entry: a PENDING instance stays, RETRIG is dropped (R189). -/
def watchRemove (s : State) (t : BitVec 3) (e : Nat) : State :=
  dropFold (watchPut (watchPut s t e 0 63 63 0) t e 0x28 61 61 0) t e

/-- The words of a 64 B image. -/
def imageWords (s : State) (a : Nat) : List Nat := (List.range 8).map (fun i => readNat s (a + 8 * i) 8)

/-- The result of WATCH: STATUS and the index. -/
def watchReply (f : SysF) (r : Status × Nat × State) : Act := .done (pushScalar r.2.2 1 11 f.d.toNat (word (r.1.code * 2 ^ 56 + r.2.1)))

/-- WATCH from an endpoint: SPACE, BASE and CTX come from A's record and the issuer; the range is checked as a write of LEN bytes,
whose first address FADR gives (R343, R367). -/
def watchFrom (f : SysF) (s : State) (w : List Nat) : Act :=
  let t := curTask s
  let a := scalarIn t f.a
  let b := recReg t (endRec a)
  let h := handleReg t (endHnd a)
  let n := bits (w.getD 2 0) 21 0
  if endPending s a then .stall
  else
    match endPoison s a 11 with
    | some x => .trap x
    | none =>
      if endOk t a = false ∨ (b.space = 2 ∧ h.valid = true ∧ handleTag (agentTower s.cur) h ≠ 0) then .trap (bundleFault s .illegalOperand 11)
      else
        match checkEnd s 11 .store 1 a [((endOff a : Nat), n)] with
        | .error x => .trap (if x.cls = 2 then { x with adr := BitVec.ofInt 64 ((b.base : Int) + (endOff a : Nat)) } else x)
        | .ok e =>
          let tm := decide (b.space = 2)
          let tower := if tm then agentTower s.cur else BitVec.ofNat 3 (e.adr / 2 ^ 29)
          let base := if tm then e.adr - tmFlat tower.toNat 0 else e.adr
          let w0 := setBits (setBits (w.getD 0 0) 57 56 (if tm then 1 else 0)) 55 44 t.ctx.toNat
          watchReply f (watchInstall s tower (setAt (setAt w 0 w0) 1 base))

/-- WATCH (R343) (DEDUCED, log 93). An image that meets an uncorrectable error faults (R378). -/
def sylWatch (f : SysF) (s : State) : Act :=
  withBlock s 11 .load 64 1 false false (scalarIn (curTask s) f.b) (fun e =>
    match firstLost s e.adr 64 with
    | some x => .trap (mkFault .uncorrected (endErrAdr e x) 11)
    | none =>
      let w := imageWords s e.adr
      if f.imm = 1 then
        let own := agentTower s.cur
        let tower := if bits (w.getD 0 0) 57 56 = 0 then BitVec.ofNat 3 (bits (w.getD 1 0) 31 29) else own
        watchReply f (watchInstall s tower w)
      else watchFrom f s w)

/-- WATCH with its gate. -/
def execWatch (h : Head) (f : SysF) (s : State) : Host.Outcome State Fault Refusal := runGated (.watch h f) (sylWatch f) s

/-- UNWATCH (R343). -/
def sylUnwatch (f : SysF) (s : State) : Act :=
  let a := (scalarIn (curTask s) f.a).toNat
  let t := BitVec.ofNat 3 (bits a 63 61)
  let e := bits a 11 0
  let reply := fun (s : State) (st : Nat) => Act.done (pushScalar s 1 11 f.d.toNat (word (st * 2 ^ 56)))
  if bits a 60 12 ≠ 0 then .trap (bundleFault s .illegalOperand 11)
  else if isSup s.cur = false ∧ watchGet s t e 0 55 44 ≠ (curTask s).ctx.toNat then reply s Status.rights.code
  else if watchGet s t e 0 63 63 = 0 then reply s Status.state.code
  else reply (watchRemove s t e) 0

/-- UNWATCH with its gate. -/
def execUnwatch (h : Head) (f : SysF) (s : State) : Host.Outcome State Fault Refusal := runGated (.unwatch h f) (sylUnwatch f) s

/-! ### The timetable (R182, R183, R359, R360) -/

/-- A field of a timetable entry, by its bits of 256 (R182): word `off / 8`. -/
def ttGet (s : State) (t : BitVec 3) (e off hi lo : Nat) : Nat := getField s (ttAdr t e + off) hi lo
/-- Replace a field of a timetable entry. -/
def ttPut (s : State) (t : BitVec 3) (e off hi lo v : Nat) : State := putField s (ttAdr t e + off) hi lo v

/-- TTREL (R344). -/
def sylTtrel (f : SysF) (s : State) : Act :=
  let k := curTask s
  let a := (scalarIn k f.a).toNat
  let b := (scalarIn k f.b).toNat
  let t := agentTower s.cur
  let reply := fun (s : State) (st : Nat) => Act.done (pushScalar s 1 11 f.d.toNat (word (st * 2 ^ 56)))
  if 2 ^ 14 ≤ a ∨ 2 ^ 44 ≤ b then .trap (bundleFault s .illegalOperand 11)
  else if ttGet s t a 24 59 48 ≠ k.ctx.toNat then reply s Status.rights.code
  else if ttGet s t a 24 35 20 ≠ 0 then reply s Status.state.code
  else reply (ttPut (ttPut (ttPut s t a 16 63 32 (bits b 31 0)) t a 24 19 8 (bits b 43 32)) t a 24 63 63 1) 0

/-- TTREL with its gate. -/
def execTtrel (h : Head) (f : SysF) (s : State) : Host.Outcome State Fault Refusal := runGated (.ttrel h f) (sylTtrel f) s

/-- Are reserved bits of an entry set (R182)? -/
def ttReserved (s : State) (t : BitVec 3) (e : Nat) : Bool :=
  decide (ttGet s t e 24 62 60 ≠ 0) || decide (ttGet s t e 24 7 0 ≠ 0) || decide (ttGet s t e 8 47 0 ≠ 0)

/-- The frames by which an entry's key lies ahead, signed. -/
def ttAhead (s : State) (t : BitVec 3) (e : Nat) : Int := signed 32 (ttGet s t e 16 63 32 + 2 ^ 32 - frame32 s)

/-- Is an entry due at a release tick (R183)? -/
def ttDue (s : State) (t : BitVec 3) (k e : Nat) : Bool :=
  decide (ttAhead s t e < 0) || (decide (ttAhead s t e = 0) && decide (ttGet s t e 24 19 8 ≤ k))

/-- Disarm an entry and post TT_BAD (R182). -/
def ttBad (s : State) (t : BitVec 3) (e : Nat) : State := postEvent (ttPut s t e 24 63 63 0) t 0x44 (word e) 0 0 0xFF

/-- The least multiple of a period that makes a key later than the present tick (R183). `d` is how far ahead the key lies. -/
def ttAdvance (d : Int) (tick period k : Nat) : Nat :=
  let behind := (-d).toNat
  let n := behind / period
  if behind < n * period ∨ (behind = n * period ∧ k < tick) then n * period else (n + 1) * period

/-- The frame configuration that governed the frame `d` frames from the present one: the oldest on record before the first frame. -/
def runOf (s : State) (d : Int) : FrmRun :=
  let now : FrmRun := ⟨s.pkg.frame, s.pkg.fstart, 0, s.pkg.frmNow⟩
  (s.pkg.runs.find? (fun r => decide ((r.frame.toNat : Int) ≤ s.pkg.frame.toNat + d))).getD (s.pkg.runs.getLastD now)

/-- The number of release ticks that have started before tick `tick` of the frame `d` frames from the present one (R179, R360). -/
def ticksTo (s : State) (d : Int) (tick : Nat) : Int :=
  let r := runOf s d
  (r.ticks : Int) + ((s.pkg.frame.toNat : Int) + d - r.frame.toNat) * bits r.cfg.toNat 12 0 + tick

/-- The CYC at which a tick of the frame `d` frames from the present one started; 0 for a key before the first frame (R179, R364,
DESIGN CHOICE, log 110). -/
def tickStart (s : State) (d : Int) (tick : Nat) : Word :=
  let r := runOf s d
  let fper := bits r.cfg.toNat 63 32
  let tpf := bits r.cfg.toNat 12 0
  word (((r.start.toNat : Int) + ((s.pkg.frame.toNat : Int) + d - r.frame.toNat) * fper + (tick * (fper / tpf) : Nat)).toNat)

/-- Release a due entry at tick `k` (R183, R360). A release that comes behind the first cycle of the key's tick is late, be it by
no whole tick. -/
def ttRelease (s : State) (t : BitVec 3) (k e : Nat) : State :=
  let tick := ttGet s t e 24 19 8
  let key := ttGet s t e 16 63 32
  let period := ttGet s t e 24 35 20
  let d := ttAhead s t e
  let late := (ticksTo s 0 k - ticksTo s d tick).toNat
  let coord := BitVec.ofNat 48 (ttGet s t e 16 31 0 * 2 ^ 16 + ttGet s t e 8 63 48)
  let s1 := addLaunch s t (BitVec.ofNat 12 (ttGet s t e 24 59 48)) (ttGet s t e 24 47 36) coord (word (readNat s (ttAdr t e) 8))
    .timetable (.timetable e (BitVec.ofNat 32 (frame32 s))) none []
  let start := tickStart s d tick
  let s1 := modTower s1 t (fun w =>
    { w with launches := w.launches.map (fun l => if l.id = s.nextId then { l with release := start } else l) })
  let s2 :=
    if late = 0 ∧ s.pkg.cyc = tickStart s 0 k then s1
    else modTower s1 t (fun w =>
      { w with slips := w.slips ++ [⟨BitVec.ofNat 32 key, 1, BitVec.ofNat 14 e, BitVec.ofNat 32 (min late 0xFFFFFFFF)⟩] })
  if period = 0 then ttPut s2 t e 24 63 63 0 else ttPut s2 t e 16 63 32 (key + ttAdvance d tick period k)

/-- The scan of one armed entry. -/
def ttScan (t : BitVec 3) (k : Nat) (s : State) (e : Nat) : State :=
  if ttReserved s t e then ttBad s t e
  else if ttDue s t k e = false then s
  else if tpf s ≤ ttGet s t e 24 19 8 then ttBad s t e
  else ttRelease s t k e

/-- Does the timetable unit hold a launch, for which the queues have no place, so that it scans no further (R352)? -/
def ttHolds (w : TowerSt) : Bool :=
  decide (16384 < w.ready.length + w.launches.length) &&
    w.launches.any (fun l =>
      match l.source with
      | .timetable _ _ => true
      | _ => false)

/-- Scan entries in ascending order until the unit holds a launch; where the scan stopped. -/
def ttScanAll (t : BitVec 3) (k : Nat) : List Nat → State → State × Option Nat
  | [], s => (s, none)
  | e :: l, s => if ttHolds (getTower s t) then (s, some e) else ttScanAll t k l (ttScan t k s e)

/-- RELEASE_TICK (R183): the scan of a release tick, once, unless the unit is stalled or holds a launch; a scan that a held launch
stopped goes on where it stopped (R352). -/
def execReleaseTick (t : BitVec 3) (s : State) : Host.Outcome State Fault Refusal :=
  let w := getTower s t
  let k := curTick s
  if (w.scanFrom.isNone ∧ w.scanned = some (s.pkg.frame, k)) ∨ w.stall.isSome ∨ ttHolds w then .next s
  else
    let r := ttScanAll t k ((ttArmed s t).filter (fun e => decide (w.scanFrom.getD 0 ≤ e))) s
    let done := if w.scanFrom.isSome then w.scanned else some (s.pkg.frame, k)
    .next (modTower r.1 t (fun w => { w with scanned := done, scanFrom := r.2 }))

/-- Is a task one that a timetable entry released in a frame? -/
def releasedIn (f : BitVec 32) (k : Task) : Bool :=
  match k.source with
  | .timetable _ g => decide (g = f)
  | _ => false

/-- Is a task of a tower that was released in a frame still READY (R359): in the queues (R152), never placed? -/
def stillLate (s : State) (t : BitVec 3) (f : BitVec 32) : Bool :=
  s.tasks.any (fun k => decide (k.2.home = t) && decide (k.2.status = .ready) && !k.2.placedOnce && releasedIn f k.2)

/-- The stall of a tower's timetable unit ends when no late task remains (R359); `last` is the entry that the task just placed
carries, or none. An OVERRUN record names the last task placed, also where the stall ends otherwise. The unit scans again at the
next release tick (DEDUCED, log 38). -/
def endStall (s : State) (t : BitVec 3) (last : Option Nat) : State :=
  let w := getTower s t
  match w.stall with
  | none => s
  | some f =>
    let back := signed 32 ((f.toNat + 1) % 2 ^ 32 + 2 ^ 32 - frame32 s)
    let late := min (ticksTo s 0 (curTick s) - ticksTo s back 0).toNat 0xFFFFFFFF
    let slip := (last.map (fun e => (⟨f, 0, BitVec.ofNat 14 e, BitVec.ofNat 32 late⟩ : Slip))).or w.lastSlip
    if stillLate s t f then setTower s t { w with lastSlip := slip }
    else
      setTower s t { w with
        stall := none, lastSlip := none, slips := w.slips ++ slip.toList, scanned := some (s.pkg.frame, curTick s), scanFrom := none }

/-- At a frame start the unit stalls where a task released in the frame just ended waits still (R359). -/
def beginStall (s : State) (t : BitVec 3) : State :=
  let f := BitVec.ofNat 32 (s.pkg.frame.toNat - 1)
  if (getTower s t).stall.isNone ∧ stillLate s t f then modTower s t (fun w => { w with stall := some f }) else s

/-- Post the slips of the frame just ended (R360). -/
def postSlips (s : State) (t : BitVec 3) : State :=
  let l := (getTower s t).slips
  let s1 := modTower s t (fun w => { w with slips := [] })
  l.foldl (fun s x =>
    postEvent s t 0x45 (word (x.frame.toNat * 2 ^ 32 + x.cause.toNat * 2 ^ 30 + x.entry.toNat)) (word (x.excess.toNat * 2 ^ 32)) 0 0xFF) s1

end Sys2Proof.Machine
end

