-- ==== Sys2Proof/Machine/Streams.lean ====
section
/-!
DEFINITION. Streams: ingress, ticks, eviction and restore, and what the stream commands do (spec 06_sequence_memory.md R132 to
R137, 09_time_and_watch.md R184 to R187 and R194, 15_task_sequence_system.md R340, 18_links_host.md R382).
-/
namespace Sys2Proof.Machine

/-! ### The stream table (R133, R184) -/

/-- A field of a stream-table entry. -/
def stGet (s : State) (t : BitVec 3) (n off hi lo : Nat) : Nat := getField s (streamAdr t n + off) hi lo
/-- Replace a field of a stream-table entry. -/
def stPut (s : State) (t : BitVec 3) (n off hi lo v : Nat) : State := putField s (streamAdr t n + off) hi lo v
/-- EN. -/
def stOn (s : State) (t : BitVec 3) (n : Nat) : Bool := decide (stGet s t n 0 63 63 = 1)
/-- CTX. -/
def stCtx (s : State) (t : BitVec 3) (n : Nat) : BitVec 12 := BitVec.ofNat 12 (stGet s t n 0 59 48)
/-- REQ. -/
def stReq (s : State) (t : BitVec 3) (n : Nat) : Nat := stGet s t n 0 31 21
/-- GUARD in nanoseconds. -/
def stGuard (s : State) (t : BitVec 3) (n : Nat) : Nat := stGet s t n 8 31 0 * 1000
/-- TPER in nanoseconds. -/
def stPeriod (s : State) (t : BitVec 3) (n : Nat) : Nat := stGet s t n 0x38 63 32 * 1000
/-- NEXTT. -/
def stNext (s : State) (t : BitVec 3) (n : Nat) : Nat := stGet s t n 0x40 63 0
/-- EXPSEQ. -/
def stExp (s : State) (t : BitVec 3) (n : Nat) : Nat := stGet s t n 0x10 63 32

/-- Mirror the entry into the header of its slot, while the stream holds it (R132, R133). -/
def stMirror (s : State) (t : BitVec 3) (n : Nat) : State :=
  if streamState s t n < 2 then storeQuiet s (slotAdr t n) (readBytes s (streamAdr t n) 0x80) else s

/-- The first tick whose time is at least GUARD ahead of the present (R184). -/
def firstTick (s : State) (t : BitVec 3) (n : Nat) : Nat :=
  let phase := stGet s t n 0x30 63 0
  let from' := ptpt s + stGuard s t n
  if from' ≤ phase then phase else phase + ceilDiv (from' - phase) (stPeriod s t n) * stPeriod s t n

/-! ### Placing frames (R134, R135) -/

/-- The status line and the payload of the buffer that a frame goes to. -/
def frameLine (t : BitVec 3) (f : HeldFrame) : Nat := slotAdr t f.slot + 0x200 + 0x40 * (f.seq.toNat % 2)
/-- The address of the payload. -/
def frameData (t : BitVec 3) (f : HeldFrame) : Nat := slotAdr t f.slot + 0x400 + 0x2000 * (f.seq.toNat % 2)

/-- Is another frame being written into the buffer of a frame? -/
def bufferTaken (s : State) (t : BitVec 3) (f : HeldFrame) : Bool :=
  (getTower s t).landing.any (fun l => decide (l.frame.slot = f.slot) && decide (l.frame.seq.toNat % 2 = f.seq.toNat % 2))

/-- Place a frame into the slot `n` of an ACTIVE stream (R135): late and over frames are counted, another one is begun. A buffer that a
frame is being written into is not free. -/
def placeFrame (t : BitVec 3) (n : Nat) (s : State) (f0 : HeldFrame) : State :=
  let f := { f0 with slot := n }
  let q := f.seq.toNat
  let w := readNat s (frameLine t f) 8
  let cons := readNat s (slotAdr t n + 0x280) 4
  if signed 32 (q + 2 ^ 32 - stExp s t n) < 0 then stMirror (stPut s t n 0x10 31 16 (satInc 16 (stGet s t n 0x10 31 16))) t n
  else if bufferTaken s t f ∨ (bits w 31 30 ≠ 0 ∧ 0 < signed 32 (bits w 63 32 + 2 ^ 32 - cons)) then
    stMirror (stPut s t n 0x10 15 0 (satInc 16 (stGet s t n 0x10 15 0))) t n
  else modTower { s with nextId := s.nextId + 1 } t (fun w => { w with landing := w.landing ++ [⟨s.nextId, f, [], []⟩] })

/-- The bytes of a line of a payload. -/
def frameBytes (f : HeldFrame) (l : Nat) : List Byte := (f.bytes.drop (64 * l)).take 64

/-- A line of the payload of a frame under way is written (R92, R93; DEDUCED, log 128). -/
def framePart (t : BitVec 3) (k l : Nat) (s : State) : State :=
  match (getTower s t).landing.find? (fun x => x.id = k) with
  | none => s
  | some x =>
    if x.put.contains l ∨ frameBytes x.frame l = [] then s
    else
      let r := storeNote s (frameData t x.frame + 64 * l) (frameBytes x.frame l)
      modTower r.1 t (fun w => { w with landing := w.landing.map (fun y =>
        if y.id = k then { y with put := l :: y.put, hits := addHits y.hits r.2 } else y) })

/-- A frame lands: what remains of its payload is written, then word 1 and last word 0 of the status line, three triggering writes
(R135, R190; DEDUCED, log 128). -/
def frameLand (t : BitVec 3) (k : Nat) (s : State) : State :=
  match (getTower s t).landing.find? (fun x => x.id = k) with
  | none => s
  | some x =>
    let f := x.frame
    let rest := (List.range (ceilDiv f.bytes.length 64)).filter (fun l => !x.put.contains l)
    let s0 := modTower s t (fun w => { w with landing := w.landing.filter (fun y => y.id ≠ k) })
    let s1 := storeRest s0 (rest.map (fun l => (frameData t f + 64 * l, frameBytes f l))) [(frameData t f, f.bytes.length)] x.hits
    let s2 := storeTrig s1 (frameLine t f + 8) (leBytes 8 f.time.toNat)
    let s3 := storeTrig s2 (frameLine t f) (leBytes 8 (f.seq.toNat * 2 ^ 32 + 2 ^ 30 + f.bytes.length))
    stMirror (stPut s3 t f.slot 0x18 63 0 f.time.toNat) t f.slot

/-- Hold a frame for a stream that is away: at most two, and a third is counted (R137). -/
def holdFrame (s : State) (t : BitVec 3) (f : HeldFrame) : State :=
  modTower s t (fun w =>
    if (w.frames.filter (fun g => g.slot = f.slot)).length < 2 then { w with frames := w.frames ++ [f] }
    else
      let k := ((w.overN.find? (fun o => o.1 = f.slot)).map Prod.snd).getD 0
      { w with overN := (f.slot, BitVec.ofNat 16 (satInc 16 k.toNat)) :: w.overN.filter (fun o => o.1 ≠ f.slot) })

/-- The held frames of a stream. -/
def heldOf (s : State) (t : BitVec 3) (n : Nat) : List HeldFrame := (getTower s t).frames.filter (fun f => f.slot = n)

/-- Forget what a tower keeps for a stream away. -/
def dropHeld (s : State) (t : BitVec 3) (n : Nat) : State :=
  modTower s t (fun w =>
    { w with
      frames := w.frames.filter (fun f => f.slot ≠ n)
      overN := w.overN.filter (fun o => o.1 ≠ n)
      silent := w.silent.filter (fun k => k ≠ n)
      restores := w.restores.filter (fun k => k ≠ n)
      noSlot := w.noSlot.filter (fun k => k ≠ n) })

/-! ### The watches over a slot (R194) -/

/-- The watch entries over the slot of a stream: of one that holds its slot, those whose range meets the slot and that are no other
stream's; of one that does not, those that left with it. -/
def watchesOver (s : State) (t : BitVec 3) (n : Nat) : List Nat :=
  let w := getTower s t
  (watchesOn s t).filter (fun e =>
    if streamState s t n < 2 then
      rangesMeet (watchBase s t e, watchLen s t e) (slotAdr t n, 0x8000) && !w.away.any (fun x => decide (x.1 = e))
    else w.away.contains (e, n))

/-- A stream leaves its slot: its watch entries test nothing until it is restored. -/
def parkWatches (s : State) (t : BitVec 3) (n : Nat) : State :=
  modTower s t (fun w => { w with away := (watchesOver s t n).map (fun e => (e, n)) ++ w.away })

/-- The stream goes on: discarded frames are counted, the held ones are placed (R137). -/
def releaseHeld (s : State) (t : BitVec 3) (n : Nat) : State :=
  let k := (((getTower s t).overN.find? (fun o => o.1 = n)).map Prod.snd).getD 0
  let l := heldOf s t n
  let s1 := stPut s t n 0x10 15 0 (min (stGet s t n 0x10 15 0 + k.toNat) 0xFFFF)
  l.foldl (placeFrame t n) (dropHeld s1 t n)

/-- A restore begins: the stream is RESTORING, and the device itself goes on with it unless the function is assisted (R137, R379). -/
def beginRestore (s : State) (t : BitVec 3) (n : Nat) : State :=
  modTower (stPut s t n 0 62 60 3) t (fun w => { w with restores := if w.fmr.getLsbD 3 then w.restores else w.restores ++ [n] })

/-- A stream frame for a tower: placed, held, or counted where no stream matches (R137, R382) (DEDUCED, log 91). -/
def streamFrame (s : State) (t : BitVec 3) (id : Nat) (seq : BitVec 32) (time : Word) (bytes : List Byte) : State :=
  match (if (getTower s t).inReset then none else (streamsOn s t).find? (fun n => stGet s t n 0 47 32 = id)) with
  | none => modTower s 0 (fun w => { w with discards := w.discards + 1 })
  | some n =>
    let f : HeldFrame := ⟨n, seq, time, bytes⟩
    if streamState s t n = 0 then placeFrame t n s f
    else
      let s1 := holdFrame s t f
      if streamState s t n = 2 then beginRestore s1 t n else s1

/-- A number in network byte order. -/
def beNat (l : List Byte) : Nat := leNat l.reverse

/-- Bytes of a frame. -/
def slice (l : List Byte) (a n : Nat) : List Byte := (l.drop a).take n

/-- Is a frame a PTP message: over Ethernet, or over UDP and IPv4 (R383)? `p` is where its EtherType stands. -/
def isPtp (l : List Byte) (p : Nat) : Bool :=
  let ety := beNat (slice l p 2)
  let ip := p + 2
  let udp := ip + (beNat (slice l ip 1) % 16) * 4
  let port := beNat (slice l (udp + 2) 2)
  decide (ety = 0x88F7) ||
    (decide (ety = 0x0800) && decide (beNat (slice l (ip + 9) 1) = 17) && (decide (port = 319) || decide (port = 320)))

/-- Is the header of a stream frame, from its EtherType's end, sound (R382)? -/
def streamHeaderOk (l : List Byte) (h : Nat) : Bool :=
  let len := beNat (slice l (h + 16) 2)
  decide (h + 20 ≤ l.length) && decide (beNat (slice l h 1) = 0x10) && decide (beNat (slice l (h + 1) 1) < 8) &&
    decide (beNat (slice l (h + 18) 2) = 0) && decide (1 ≤ len) && decide (len ≤ 8192) && decide (l.length = h + 20 + len)

/-- ETH_FRAME_RECEIVE (R382): `bytes` is the frame without its FCS. PTP messages go to the time unit, whose row is
PTP_MESSAGE (DEDUCED, log 94). -/
def execEthFrameReceive (_port : BitVec 1) (fcsOk : Bool) (bytes : List (BitVec 8)) (s : State) :
    Host.Outcome State Fault Refusal :=
  let p := if beNat (slice bytes 12 2) = 0x8100 then 16 else 12
  let h := p + 2
  if fcsOk = false ∨ isPtp bytes p then .next s
  else if bytes.length + 4 ≤ 9216 ∧ beNat (slice bytes p 2) = 0x88B5 ∧ streamHeaderOk bytes h then
    .next (streamFrame s (BitVec.ofNat 3 (beNat (slice bytes (h + 1) 1))) (beNat (slice bytes (h + 2) 2))
      (BitVec.ofNat 32 (beNat (slice bytes (h + 4) 4))) (word (beNat (slice bytes (h + 8) 8))) (bytes.drop (h + 20)))
  else .next (modTower s 0 (fun w => { w with discards := w.discards + 1 }))

/-! ### Ticks (R185 to R187) -/

/-- Is chunk `q` present (R185)? -/
def chunkPresent (s : State) (t : BitVec 3) (n q : Nat) : Bool :=
  let w := readNat s (slotAdr t n + 0x200 + 0x40 * (q % 2)) 8
  decide (bits w 31 30 = 1) && decide (bits w 63 32 = q)

/-- Note that a check point is decided, with the launch it decided. -/
def noteCheck (s : State) (t : BitVec 3) (n : Nat) (launch : Bool) (arg : Nat) : State :=
  modTower s t (fun w => { w with checked := w.checked ++ [n], fires := w.fires ++ [⟨n, launch, word arg⟩] })

/-- AtCheckPoint (R185). -/
def atCheckPoint (s : State) (t : BitVec 3) (n : Nat) : State :=
  let q := stGet s t n 0x48 63 32
  let shifts := stGet s t n 0x48 31 28
  let present := chunkPresent s t n q
  if present = false ∧ stGet s t n 0 20 20 = 1 ∧ shifts < stGet s t n 0 19 16 then
    let s1 := stPut s t n 0x48 31 28 (shifts + 1)
    noteCheck (stMirror (stPut s1 t n 0x50 63 48 (satInc 16 (stGet s1 t n 0x50 63 48))) t n) t n false 0
  else
    let gap := if present then 0 else 1
    let s1 := if present then s else stPut s t n 0x48 15 0 (satInc 16 (stGet s t n 0x48 15 0))
    let next := (q + 1) % 2 ^ 32
    let s2 := stPut (stPut (stPut s1 t n 0x10 63 32 next) t n 0x48 63 32 next) t n 0x48 31 28 0
    noteCheck (stMirror s2 t n) t n true (q * 2 ^ 32 + gap * 2 ^ 31 + shifts * 2 ^ 24 + stGet s t n 0x50 23 0)

/-- Is a stream configured and ACTIVE? -/
def stActive (s : State) (t : BitVec 3) (n : Nat) : Bool := decide (n < 768) && stOn s t n && decide (streamState s t n = 0)

/-- STREAM_CHECK_POINT (R185): once device time has reached it. -/
def execStreamCheckPoint (t : BitVec 3) (slot : BitVec 10) (s : State) : Host.Outcome State Fault Refusal :=
  let n := slot.toNat
  .next (if stActive s t n ∧ (getTower s t).checked.contains n = false ∧ stNext s t n ≤ ptpt s + stGuard s t n then
      atCheckPoint s t n
    else s)

/-- Skip the ticks whose check point device time has passed (R187). -/
def skipTicks (s : State) (t : BitVec 3) (n : Nat) : State :=
  let now := ptpt s + stGuard s t n
  let next := stNext s t n
  if stActive s t n = false ∨ (getTower s t).checked.contains n = true ∨ now ≤ next then s
  else
    let m := ceilDiv (now - next) (stPeriod s t n)
    let seq := (stGet s t n 0x48 63 32 + m) % 2 ^ 32
    let s1 := stPut (stPut s t n 0x40 63 0 (next + m * stPeriod s t n)) t n 0x48 63 32 seq
    let s2 := stPut s1 t n 0x48 15 0 (min (stGet s t n 0x48 15 0 + m) 0xFFFF)
    stMirror (stPut (stPut s2 t n 0x48 31 28 0) t n 0x10 63 32 seq) t n

/-- AtTick (R185): the launch decided, WindowStep, and the next tick. -/
def atTick (s : State) (t : BitVec 3) (n : Nat) : State :=
  let tk := stNext s t n
  let fire := (getTower s t).fires.find? (fun f => f.slot = n)
  let s1 := modTower s t (fun w =>
    { w with checked := w.checked.filter (fun k => k ≠ n), fires := w.fires.filter (fun f => f.slot ≠ n) })
  let s2 := match fire with
    | some f =>
      if f.launch then
        addLaunch s1 t (stCtx s t n) (stGet s t n 0x38 11 0) (BitVec.ofNat 48 (stGet s t n 0 9 0 * 2 ^ 32 + stGet s t n 0 47 32 * 2 ^ 16))
          f.arg .timetable (.tick n) none []
      else s1
    | none => s1
  let r := stReq s t n
  let s3 := if reqOpen s2 t r ∧ reqWin s2 t r then windowStep s2 t r (tk / 1000 % 2 ^ 32) else s2
  skipTicks (stMirror (stPut s3 t n 0x40 63 0 (tk + stPeriod s t n)) t n) t n

/-- STREAM_TICK (R185): once device time has reached it. -/
def execStreamTick (t : BitVec 3) (slot : BitVec 10) (s : State) : Host.Outcome State Fault Refusal :=
  let n := slot.toNat
  .next (if stActive s t n ∧ (getTower s t).checked.contains n = true ∧ stNext s t n ≤ ptpt s then atTick s t n else s)

/-! ### The grant of a slot (R136, R137) -/

/-- The grant entry of a stream: its flat address, if its context has a table. -/
def grantFlat (s : State) (t : BitVec 3) (n : Nat) : Option Nat := entryFlat s t (stCtx s t n) (BitVec.ofNat 16 (stGet s t n 0x28 15 0))

/-- Rewrite the grant entry of a stream with VALID, its BASE moved to the same place of another slot. -/
def putGrant (s : State) (t : BitVec 3) (n : Nat) (valid : Nat) (slot : Option Nat) : State :=
  match grantFlat s t n with
  | none => s
  | some a =>
    let e := readNat s a 32
    let old := bits e 255 192
    let base := match slot with
      | some k => slotAdr t k + old % 0x8000
      | none => old
    putEntry s a (stCtx s t n) (BitVec.ofNat 16 (stGet s t n 0x28 15 0)) (setBits (setBits e 255 192 base) 19 19 valid)

/-! ### Silence eviction (R136) -/

/-- Is a stream silent (R136)? -/
def stSilent (s : State) (t : BitVec 3) (n : Nat) : Bool :=
  let lim := stGet s t n 8 63 32
  stActive s t n && decide (lim ≠ 0) && decide (stGet s t n 0x18 63 0 + lim * 1000 ≤ ptpt s) && !boundLive s t (stReq s t n)

/-- Begin an eviction: the stream is EVICTING, its ticks stop; in assisted mode Malaskun does the rest. -/
def beginEvict (t : BitVec 3) (s : State) (n : Nat) : State :=
  let s1 := stMirror (stPut s t n 0 62 60 1) t n
  let s2 := modTower s1 t (fun w =>
    { w with checked := w.checked.filter (fun k => k ≠ n), fires := w.fires.filter (fun f => f.slot ≠ n) })
  if (getTower s t).fmr.getLsbD 3 then postEvent s2 t 0x48 (word n) 0 0 0xFF
  else modTower (putGrant s2 t n 0 none) t (fun w => { w with silent := w.silent ++ [n] })

/-- The silence check of a tower at a frame start. -/
def checkSilence (s : State) (t : BitVec 3) : State := ((streamsOn s t).filter (stSilent s t)).foldl (beginEvict t) s

/-- The flat address of a stream's save area in TM, where a right is given (bit 15 RD, 14 WR). -/
def saveAreaOf (s : State) (t : BitVec 3) (n right : Nat) : Option Nat :=
  let va := word (stGet s t n 0x20 63 0)
  if canonical va = false then none
  else
    match walk s t (stCtx s t n) va with
    | some (size, leaf) =>
      if bits leaf 61 60 = 0 ∧ bit leaf right then
        some (tmFlat (bits leaf 59 57) (bits leaf 51 16 * 2 ^ 16 + va.toNat % pageSize size))
      else none
    | none => none

/-- Is a frame under way into a slot? -/
def frameUnderWay (s : State) (t : BitVec 3) (n : Nat) : Bool := (getTower s t).landing.any (fun x => decide (x.frame.slot = n))

/-- Does an access still use a slot? -/
def slotBusy (s : State) (t : BitVec 3) (n : Nat) : Bool :=
  !(issuedTo s (slotAdr t n) 0x8000).isEmpty || frameUnderWay s t n

/-- Does the retirement of a spire hold a stream's save area (R65)? -/
def saveHeld (s : State) (t : BitVec 3) (n : Nat) : Bool := (saveAreaOf s t n 14).any (fun a => rangeHeld s a 0x8000)

/-- Steps 3 and 4 of an eviction (R136). A failed save leaves the stream ACTIVE (DEDUCED, log 37). -/
def finishEvict (s : State) (t : BitVec 3) (n : Nat) : State :=
  match saveAreaOf s t n 14 with
  | none =>
    let s1 := postEvent s t 0x49 (word n) (word (stGet s t n 0x20 63 0)) 0 0xFF
    let s2 := stPut s1 t n 0 62 60 0
    stMirror (releaseHeld (stPut s2 t n 0x40 63 0 (firstTick s2 t n)) t n) t n
  | some a =>
    let s1 := giveTo (copyRaw (parkWatches s t n) (slotAdr t n) a 0x8000) (slotAdr t n) 0x8000 0
    let s2 := modTower s1 t (fun w => { w with silent := w.silent.filter (fun k => k ≠ n) })
    if (heldOf s t n).isEmpty then stPut s2 t n 0 62 60 2 else beginRestore s2 t n

/-- STREAM_EVICTION (R136): once no access uses the slot. -/
def execStreamEviction (t : BitVec 3) (slot : BitVec 10) (s : State) : Host.Outcome State Fault Refusal :=
  let n := slot.toNat
  .next (if (getTower s t).silent.contains n ∧ slotBusy s t n = false ∧ saveHeld s t n = false then finishEvict s t n else s)

/-! ### Restore (R137, R194) -/

/-- Does a stream hold a slot: one that is ACTIVE or EVICTING (R136, R137)? -/
def slotTaken (s : State) (t : BitVec 3) (k : Nat) : Bool := stOn s t k && decide (streamState s t k < 2)

/-- Is a slot free for a stream (R137, R195)? -/
def slotFree (s : State) (t : BitVec 3) (k : Nat) : Bool := !slotTaken s t k && !(hcwOpen s t && decide (760 ≤ k))

/-- The lowest free slot. -/
def lowestSlot (s : State) (t : BitVec 3) : Option Nat := (List.range 768).find? (slotFree s t)

/-- Report once that a restore cannot go on. -/
def reportOnce (s : State) (t : BitVec 3) (n code : Nat) (fadr fbnd : Word) : State :=
  if (getTower s t).noSlot.contains n then s
  else postEvent (modTower s t (fun w => { w with noSlot := w.noSlot ++ [n] })) t code fadr fbnd 0 0xFF

/-- The watch entries of a stream that was away move to its new slot, and test again (R194). -/
def moveWatches (s : State) (t : BitVec 3) (n k : Nat) : State :=
  let s1 := (watchesOver s t n).foldl (fun s e => watchPut s t e 8 31 0 (watchBase s t e % 0x8000 + slotAdr t k)) s
  modTower s1 t (fun w => { w with away := w.away.filter (fun x => x.2 ≠ n) })

/-- One of two table entries is the other after an exchange. -/
def swapKey (n k m : Nat) : Nat := if m = n then k else if m = k then n else m

/-- A pending RESTORE of a stream whose entry moves names it where it goes. -/
def swapCmd (t : BitVec 3) (n k : Nat) (j : Job) : Job :=
  match j.kind with
  | .cmd c =>
    if c.kind = .stRestore ∧ agentTower j.who = t then { j with kind := .cmd { c with c := word (swapKey n k c.c.toNat) } } else j
  | _ => j

/-- Exchange two table entries, with what the tower keeps for their streams: the stream that goes to entry `k` will hold its slot, and
an evicted stream found there goes to entry `n`, to which no slot need belong (DEDUCED, log 36). -/
def swapEntries (s : State) (t : BitVec 3) (n k : Nat) : State :=
  if n = k then s
  else
    let x := readBytes s (streamAdr t n) 0x80
    let y := if stOn s t k then readBytes s (streamAdr t k) 0x80 else List.replicate 0x80 0
    let s1 := writeBytes (writeBytes s (streamAdr t k) x) (streamAdr t n) y
    let s2 := if stOn s t k then stPut s1 t n 0 9 0 n else s1
    modTower { s2 with jobs := s2.jobs.map (swapCmd t n k) } t (fun w =>
      { w with
        frames := w.frames.map (fun f => { f with slot := swapKey n k f.slot })
        overN := w.overN.map (fun o => (swapKey n k o.1, o.2))
        silent := w.silent.map (swapKey n k)
        restores := w.restores.map (swapKey n k)
        noSlot := w.noSlot.map (swapKey n k)
        away := w.away.map (fun x => (x.1, swapKey n k x.2)) })

/-- Steps 3 and 4 of a restore into slot `k` from a save area (R137). -/
def restoreInto (s : State) (t : BitVec 3) (n k a : Nat) : State :=
  let s1 := copyRaw (allocZero s (slotAdr t k) 0x8000 false (stCtx s t n)) a (slotAdr t k) 0x8000
  let s2 := putGrant s1 t n 1 (some k)
  let s3 := stPut (swapEntries (moveWatches s2 t n k) t n k) t k 0 9 0 k
  let seq := match heldOf s3 t k with
    | f :: _ => f.seq.toNat
    | [] => stExp s3 t k
  let s4 := stPut (stPut (stPut s3 t k 0x10 63 32 seq) t k 0x48 63 32 seq) t k 0x48 31 28 0
  let s5 := stPut s4 t k 0 62 60 0
  let s6 := modTower s5 t (fun w =>
    { w with restores := w.restores.filter (fun m => m ≠ k), noSlot := w.noSlot.filter (fun m => m ≠ k) })
  stMirror (releaseHeld (stPut s6 t k 0x40 63 0 (firstTick s6 t k)) t k) t k

/-- STREAM_RESTORE (R137): the device's own restore; without a slot, or without a readable save area (DEDUCED, log 39), it
reports once and waits. -/
def execStreamRestore (t : BitVec 3) (slot : BitVec 10) (s : State) : Host.Outcome State Fault Refusal :=
  let n := slot.toNat
  if 768 ≤ n ∨ stOn s t n = false ∨ streamState s t n ≠ 3 ∨ (getTower s t).restores.contains n = false then .next s
  else
    match lowestSlot s t, saveAreaOf s t n 15 with
    | none, _ => .next (reportOnce s t n 0x4A (word (stGet s t n 0 47 32)) 0)
    | some _, none => .next (reportOnce s t n 0x49 (word n) (word (stGet s t n 0x20 63 0)))
    | some k, some a => .next (if allocHeld s (slotAdr t k) 0x8000 (stCtx s t n) ∨ rangeHeld s a 0x8000 then s else restoreInto s t n k a)

/-! ### The stream commands (R340) -/

/-- Is a configuration block refused (R340)? -/
def configBad (s : State) (t : BitVec 3) (a : Nat) : Bool :=
  let w := blockWord s a
  let r := bits (w 0) 31 21
  let per := bits (w 6) 63 32
  decide (bits (w 0) 15 10 ≠ 0) || decide (bits (w 4) 63 16 ≠ 0) || decide (bits (w 6) 31 12 ≠ 0) || decide (bits (w 7) 47 24 ≠ 0) ||
    decide (per < 1000) || decide (10000000 < per) || decide (per ≤ bits (w 1) 31 0) || decide (w 3 % 0x8000 ≠ 0) ||
    (reqOpen s t r && decide (reqCtx s t r ≠ bits (w 0) 59 48))

/-- Enable a stream in a slot from a configuration block (R134, R184). -/
def enableStream (s : State) (t : BitVec 3) (n a : Nat) : State :=
  let w := blockWord s a
  let ctx := BitVec.ofNat 12 (bits (w 0) 59 48)
  let seq := bits (w 2) 63 32
  let ws := [setBits (setBits (setBits (w 0) 63 63 1) 62 60 0) 9 0 n, w 1, seq * 2 ^ 32, ptpt s, w 3, w 4, w 5, w 6, 0, seq * 2 ^ 32,
    setBits (w 7) 63 48 0, 0, 0, 0, 0, 0]
  let s1 := writeBytes s (streamAdr t n) (ws.flatMap (leBytes 8))
  let s2 := stPut s1 t n 0x40 63 0 (firstTick s1 t n)
  let s3 := allocZero s2 (slotAdr t n) 0x8000 false ctx
  let s4 := storeQuiet (storeQuiet s3 (slotAdr t n + 0x200) (leBytes 8 0)) (slotAdr t n + 0x240) (leBytes 8 0)
  let s5 := storeQuiet s4 (slotAdr t n + 0x280) (leBytes 8 ((seq + 2 ^ 32 - 1) % 2 ^ 32))
  stMirror (storeQuiet s5 (slotAdr t n + 0x80) (List.replicate 0x180 (0#8))) t n

/-- Make a table entry free for a new stream: an evicted stream found there goes to the lowest entry not in use; `none` where no entry
is left (DEDUCED, log 36). -/
def clearEntry (s : State) (t : BitVec 3) (k : Nat) : Option State :=
  if stOn s t k then ((List.range 768).find? (fun m => !stOn s t m)).map (fun m => swapEntries s t k m) else some s

/-- STCFG CONFIGURE. -/
def perfStConfigure (s : State) (j : Job) (c : Cmd) : CmdOut :=
  let t := agentTower j.who
  let r := bits (blockWord s c.block 0) 31 21
  let any := bit c.c.toNat 63
  let n := bits c.c.toNat 9 0
  let give := fun (k : Nat) =>
    if frameUnderWay s t k ∨ allocHeld { s with jobs := s.jobs.filter (fun x => x.id ≠ j.id) } (slotAdr t k) 0x8000 (BitVec.ofNat 12 (bits (blockWord s c.block 0) 59 48)) then .wait s false
    else
      match clearEntry s t k with
      | some s1 => .done (enableStream s1 t k c.block) .ok k
      | none => .done s (if any then .full else .state) 0
  if configBad s t c.block then .done s .badfield 0
  else if (reqOpen s t r && reqWin s t r) = false ∨ (any = false ∧ slotFree s t n = false) then .done s .state 0
  else if any then
    match lowestSlot s t with
    | none => .done s .full 0
    | some k => give k
  else give n

/-- Remove the watches over the slot of a stream. -/
def unwatchSlot (s : State) (t : BitVec 3) (n : Nat) : State :=
  modTower ((watchesOver s t n).foldl (fun s e => watchRemove s t e) s) t (fun w =>
    { w with away := w.away.filter (fun x => x.2 ≠ n) })

/-- STCFG DISABLE: the stream is off at the first attempt, and the slot passes to context 0 once every access issued to it has been
performed (R28), unless a stream has been configured there meanwhile (DEDUCED, log 122). -/
def perfStDisable (s : State) (j : Job) (c : Cmd) : CmdOut :=
  let t := agentTower j.who
  let n := bits c.c.toNat 9 0
  let free := fun (x : State) => if slotBusy x t n then CmdOut.wait x true else .done (giveTo x (slotAdr t n) 0x8000 0) .ok 0
  if c.posted then (if slotTaken s t n then .done s .ok 0 else free s)
  else if stOn s t n = false then .done s .state 0
  else
    let s1 := stMirror (stPut (unwatchSlot s t n) t n 0 63 63 0) t n
    let s2 := modTower (dropHeld s1 t n) t (fun w =>
      { w with checked := w.checked.filter (fun k => k ≠ n), fires := w.fires.filter (fun f => f.slot ≠ n) })
    if slotTaken s t n then free s2 else .done s2 .ok 0

/-- STCFG EVICT: the grant is revoked at the first attempt, and the command waits for the slot's accesses. -/
def perfStEvict (s : State) (j : Job) (c : Cmd) : CmdOut :=
  let t := agentTower j.who
  let n := bits c.c.toNat 9 0
  if stOn s t n = false ∨ streamState s t n ≠ 1 then .done s .state 0
  else
    let s1 := if c.posted then s else putGrant s t n 0 none
    if slotBusy s1 t n ∨ saveHeld s1 t n then .wait s1 true else .done (finishEvict s1 t n) .ok 0

/-- STCFG RESTORE. A save area that cannot be read gives SAVEFAULT (DEDUCED, log 39). -/
def perfStRestore (s : State) (j : Job) (c : Cmd) : CmdOut :=
  let t := agentTower j.who
  let n := bits c.c.toNat 9 0
  if stOn s t n = false ∨ streamState s t n ≠ 3 then .done s .state 0
  else
    match lowestSlot s t, saveAreaOf s t n 15 with
    | none, _ => .done s .full 0
    | some _, none => .done s .savefault 0
    | some k, some a =>
      if allocHeld s (slotAdr t k) 0x8000 (stCtx s t n) ∨ rangeHeld s a 0x8000 then .wait s false else .done (restoreInto s t n k a) .ok k

end Sys2Proof.Machine
end

