-- ==== Sys2Proof/Machine/Commands.lean ====
section
/-!
DEFINITION. The commands of the CPY slot from their bundle to their reply: checks at the bundle, order at the sequence manager,
performance, assisted completion, and the landing of every kind of chunk (spec 15_task_sequence_system.md R329 to R340,
05_consistency.md R104, 03_tower_memory.md R71).
-/
namespace Sys2Proof.Machine

/-! ### At the bundle (R329, R330) -/

/-- Put a command on its way: one chunk, with its reply line (R329). -/
def startCmd (kind : CmdKind) (f : CmdF) (block block2 : Option CopyEnd) (s : State) : Act :=
  let t := curTask s
  let own : Option Nat × Option Nat := match s.cur with
    | .core w c => (if f.x = 0x3FFF then none else some (lsFlat w c (f.x.toNat * 64)), none)
    | .sup _ => (none, some (f.x.toNat % 8))
  let c : Cmd :=
    { kind := kind, a := scalarIn t f.a, b := scalarIn t f.b, c := scalarIn t f.c, d := scalarIn t f.d,
      block := (block.map CopyEnd.adr).getD 0, block2 := (block2.map CopyEnd.adr).getD 0,
      ends := block.toList ++ block2.toList, reply := own.1, crpy := own.2, ctx := t.ctx, mode := none, posted := false }
  .done (startJob s (mkJob s f.tok.toNat (.cmd c) 1 false))

/-- ILLEGAL_OPERAND at the bundle, unless a command's values keep their limits. -/
def cmdLimits (ok : Bool) (s : State) (k : Act) : Act := if ok then k else .trap (bundleFault s .illegalOperand 10)

/-- PRIV at the bundle, for a form of the supervisor core alone. -/
def cmdPriv (s : State) (k : Act) : Act := if isSup s.cur then k else .trap (bundleFault s .priv 10)

/-- Is a request word well formed (R330)? -/
def wordOk (w : Word) : Bool := decide (bits w.toNat 60 11 = 0)

/-- Is a value below 2 to the power `n`? (DEDUCED, log 46). -/
def fits (w : Word) (n : Nat) : Bool := decide (w.toNat < 2 ^ n)

/-- SQOPEN (R334). -/
def sylSqopen (f : CmdF) (s : State) : Act :=
  withBlock s 10 .load 64 1 false false (scalarIn (curTask s) f.a) (fun a => startCmd .sqopen f (some a) none s)

/-- SQOPEN with its gate. -/
def execSqopen (h : Head) (f : CmdF) (s : State) : Host.Outcome State Fault Refusal := runGated (.sqopen h f) (sylSqopen f) s

/-- SQCLOSE (R335). -/
def sylSqclose (f : CmdF) (s : State) : Act := cmdLimits (wordOk (scalarIn (curTask s) f.a)) s (startCmd .sqclose f none none s)

/-- SQCLOSE with its gate. -/
def execSqclose (h : Head) (f : CmdF) (s : State) : Host.Outcome State Fault Refusal := runGated (.sqclose h f) (sylSqclose f) s

/-- SQNODE (R166, R333). -/
def sylSqnode (f : CmdF) (s : State) : Act :=
  let t := curTask s
  cmdLimits (wordOk (scalarIn t f.a) && decide (bits (scalarIn t f.b).toNat 15 6 = 0) && fits (scalarIn t f.c) 32) s
    (startCmd .sqnode f none none s)

/-- SQNODE with its gate. -/
def execSqnode (h : Head) (f : CmdF) (s : State) : Host.Outcome State Fault Refusal := runGated (.sqnode h f) (sylSqnode f) s

/-- SQCHK (R166, R333). -/
def sylSqchk (f : CmdF) (s : State) : Act :=
  let t := curTask s
  let n := bits (scalarIn t f.c).toNat 38 32
  cmdLimits (wordOk (scalarIn t f.a) && fits (scalarIn t f.c) 39 && decide (1 ≤ n) && decide (n ≤ 64)) s
    (withBlock s 10 .load (8 * n) 1 false false (scalarIn t f.b) (fun a => startCmd .sqchk f (some a) none s))

/-- SQCHK with its gate. -/
def execSqchk (h : Head) (f : CmdF) (s : State) : Host.Outcome State Fault Refusal := runGated (.sqchk h f) (sylSqchk f) s

/-- SQACC (R167, R333, R336): C[63] is 0 and D is zero. -/
def sylSqacc (f : CmdF) (s : State) : Act :=
  let t := curTask s
  cmdLimits (wordOk (scalarIn t f.a) && fits (scalarIn t f.c) 32 && decide (scalarIn t f.d = 0)) s
    (withBlock s 10 .store 128 128 true true (scalarIn t f.b) (fun a => startCmd .sqacc f (some a) none s))

/-- SQACC with its gate. -/
def execSqacc (h : Head) (f : CmdF) (s : State) : Host.Outcome State Fault Refusal := runGated (.sqacc h f) (sylSqacc f) s

/-- The completing form of SQACC (R336): C[63] is 1, and D is 0 or names an accept record of the supervisor (DEDUCED, log 88). -/
def sylSqaccAssistComplete (f : CmdF) (s : State) : Act :=
  let t := curTask s
  let c := scalarIn t f.c
  cmdLimits (wordOk (scalarIn t f.a) && c.getLsbD 63 && decide (bits c.toNat 62 32 = 0)) s
    (cmdPriv s
      (if scalarIn t f.d = 0 then startCmd .sqaccAssist f none none s
       else withBlock s 10 .load 128 1 false true (scalarIn t f.d) (fun a => startCmd .sqaccAssist f none (some a) s)))

/-- The completing form of SQACC with its gate. -/
def execSqaccAssistComplete (h : Head) (f : CmdF) (s : State) : Host.Outcome State Fault Refusal :=
  runGated (.sqaccAssistComplete h f) (sylSqaccAssistComplete f) s

/-- SQSAVE (R171). -/
def sylSqsave (f : CmdF) (s : State) : Act := cmdLimits (wordOk (scalarIn (curTask s) f.a)) s (startCmd .sqsave f none none s)

/-- SQSAVE with its gate. -/
def execSqsave (h : Head) (f : CmdF) (s : State) : Host.Outcome State Fault Refusal := runGated (.sqsave h f) (sylSqsave f) s

/-- SQRST (R172). -/
def sylSqrst (f : CmdF) (s : State) : Act := startCmd .sqrst f none none s

/-- SQRST with its gate. -/
def execSqrst (h : Head) (f : CmdF) (s : State) : Host.Outcome State Fault Refusal := runGated (.sqrst h f) (sylSqrst f) s

/-- KVGROW (R119, R337). -/
def sylKvgrow (f : CmdF) (s : State) : Act :=
  let t := curTask s
  cmdLimits (wordOk (scalarIn t f.a) && fits (scalarIn t f.b) 32 && fits (scalarIn t f.c) 32) s (startCmd .kvgrow f none none s)

/-- KVGROW with its gate. -/
def execKvgrow (h : Head) (f : CmdF) (s : State) : Host.Outcome State Fault Refusal := runGated (.kvgrow h f) (sylKvgrow f) s

/-- KVCOMMIT (R119, R337). -/
def sylKvcommit (f : CmdF) (s : State) : Act :=
  let t := curTask s
  cmdLimits (wordOk (scalarIn t f.a) && fits (scalarIn t f.b) 32) s (startCmd .kvcommit f none none s)

/-- KVCOMMIT with its gate. -/
def execKvcommit (h : Head) (f : CmdF) (s : State) : Host.Outcome State Fault Refusal := runGated (.kvcommit h f) (sylKvcommit f) s

/-- KVROLL (R119, R337). -/
def sylKvroll (f : CmdF) (s : State) : Act :=
  let t := curTask s
  cmdLimits (wordOk (scalarIn t f.a) && fits (scalarIn t f.b) 32) s (startCmd .kvroll f none none s)

/-- KVROLL with its gate. -/
def execKvroll (h : Head) (f : CmdF) (s : State) : Host.Outcome State Fault Refusal := runGated (.kvroll h f) (sylKvroll f) s

/-- KVEXPORT (R120, R337). -/
def sylKvexport (f : CmdF) (s : State) : Act :=
  let t := curTask s
  cmdLimits (wordOk (scalarIn t f.a) && decide (bits (scalarIn t f.c).toNat 31 6 = 0)) s
    (withBlock s 10 .store 512 512 true false (scalarIn t f.b) (fun a => startCmd .kvexport f (some a) none s))

/-- KVEXPORT with its gate. -/
def execKvexport (h : Head) (f : CmdF) (s : State) : Host.Outcome State Fault Refusal := runGated (.kvexport h f) (sylKvexport f) s

/-- The limits of a KVPOOL function (R338): its number and its operand values. Every field is an operand of the row, so none of
them is unused in the sense of R329 (DEDUCED, log 57). -/
def poolLimits (t : Task) (f : CmdF) (n : Nat) : Bool :=
  let b := scalarIn t f.b
  let c := scalarIn t f.c
  let d := scalarIn t f.d
  decide (scalarIn t f.a = word n) &&
    (match n with
     | 0 => fits b 6
     | 1 => fits b 6
     | 2 => wordOk b && fits c 32
     | 3 => wordOk b && fits c 32
     | 4 => wordOk b && fits c 32 && decide (bits d.toNat 63 63 = 0) && decide (bits d.toNat 61 46 = 0) && decide (bits d.toNat 15 0 = 0)
     | 5 => fits b 6 && fits c 1
     | _ => fits b 6 && fits c 1 && fits d 30)

/-- KVPOOL ENABLE. -/
def sylKvpoolEnable (f : CmdF) (s : State) : Act :=
  cmdLimits (poolLimits (curTask s) f 0) s (cmdPriv s (startCmd .poolEnable f none none s))

/-- KVPOOL ENABLE with its gate. -/
def execKvpoolEnable (h : Head) (f : CmdF) (s : State) : Host.Outcome State Fault Refusal :=
  runGated (.kvpoolEnable h f) (sylKvpoolEnable f) s

/-- KVPOOL DISABLE. -/
def sylKvpoolDisable (f : CmdF) (s : State) : Act :=
  cmdLimits (poolLimits (curTask s) f 1) s (cmdPriv s (startCmd .poolDisable f none none s))

/-- KVPOOL DISABLE with its gate. -/
def execKvpoolDisable (h : Head) (f : CmdF) (s : State) : Host.Outcome State Fault Refusal :=
  runGated (.kvpoolDisable h f) (sylKvpoolDisable f) s

/-- KVPOOL PIN. -/
def sylKvpoolPin (f : CmdF) (s : State) : Act := cmdLimits (poolLimits (curTask s) f 2) s (startCmd .poolPin f none none s)

/-- KVPOOL PIN with its gate. -/
def execKvpoolPin (h : Head) (f : CmdF) (s : State) : Host.Outcome State Fault Refusal :=
  runGated (.kvpoolPin h f) (sylKvpoolPin f) s

/-- KVPOOL UNPIN. -/
def sylKvpoolUnpin (f : CmdF) (s : State) : Act := cmdLimits (poolLimits (curTask s) f 3) s (startCmd .poolUnpin f none none s)

/-- KVPOOL UNPIN with its gate. -/
def execKvpoolUnpin (h : Head) (f : CmdF) (s : State) : Host.Outcome State Fault Refusal :=
  runGated (.kvpoolUnpin h f) (sylKvpoolUnpin f) s

/-- KVPOOL SETENT. -/
def sylKvpoolSetent (f : CmdF) (s : State) : Act :=
  cmdLimits (poolLimits (curTask s) f 4) s (cmdPriv s (startCmd .poolSetent f none none s))

/-- KVPOOL SETENT with its gate. -/
def execKvpoolSetent (h : Head) (f : CmdF) (s : State) : Host.Outcome State Fault Refusal :=
  runGated (.kvpoolSetent h f) (sylKvpoolSetent f) s

/-- KVPOOL ALLOC. -/
def sylKvpoolAlloc (f : CmdF) (s : State) : Act :=
  cmdLimits (poolLimits (curTask s) f 5) s (cmdPriv s (startCmd .poolAlloc f none none s))

/-- KVPOOL ALLOC with its gate. -/
def execKvpoolAlloc (h : Head) (f : CmdF) (s : State) : Host.Outcome State Fault Refusal :=
  runGated (.kvpoolAlloc h f) (sylKvpoolAlloc f) s

/-- KVPOOL FREE. -/
def sylKvpoolFree (f : CmdF) (s : State) : Act :=
  cmdLimits (poolLimits (curTask s) f 6) s (cmdPriv s (startCmd .poolFree f none none s))

/-- KVPOOL FREE with its gate. -/
def execKvpoolFree (h : Head) (f : CmdF) (s : State) : Host.Outcome State Fault Refusal :=
  runGated (.kvpoolFree h f) (sylKvpoolFree f) s

/-- PFXLOOK (R128, R339). -/
def sylPfxlook (f : CmdF) (s : State) : Act :=
  let t := curTask s
  let n := (scalarIn t f.c).toNat
  cmdLimits (wordOk (scalarIn t f.a) && decide (1 ≤ n) && decide (n ≤ 64)) s
    (withBlock s 10 .load (128 * n) 64 false false (scalarIn t f.b) (fun a => startCmd .pfxlook f (some a) none s))

/-- PFXLOOK with its gate. -/
def execPfxlook (h : Head) (f : CmdF) (s : State) : Host.Outcome State Fault Refusal := runGated (.pfxlook h f) (sylPfxlook f) s

/-- PFXINS (R129, R339): C[63] is 0. -/
def sylPfxins (f : CmdF) (s : State) : Act :=
  let t := curTask s
  cmdLimits (wordOk (scalarIn t f.a) && fits (scalarIn t f.c) 32) s
    (withBlock s 10 .load 128 1 false false (scalarIn t f.b) (fun a => startCmd .pfxins f (some a) none s))

/-- PFXINS with its gate. -/
def execPfxins (h : Head) (f : CmdF) (s : State) : Host.Outcome State Fault Refusal := runGated (.pfxins h f) (sylPfxins f) s

/-- The completing form of PFXINS (R379): C[63] is 1. -/
def sylPfxinsAssistComplete (f : CmdF) (s : State) : Act :=
  let t := curTask s
  let c := scalarIn t f.c
  cmdLimits (wordOk (scalarIn t f.a) && c.getLsbD 63 && decide (bits c.toNat 62 32 = 0)) s
    (cmdPriv s (startCmd .pfxinsAssist f none none s))

/-- The completing form of PFXINS with its gate. -/
def execPfxinsAssistComplete (h : Head) (f : CmdF) (s : State) : Host.Outcome State Fault Refusal :=
  runGated (.pfxinsAssistComplete h f) (sylPfxinsAssistComplete f) s

/-- PFXPIN (R130, R339). -/
def sylPfxpin (f : CmdF) (s : State) : Act :=
  let t := curTask s
  cmdLimits (wordOk (scalarIn t f.a) && decide (bits (scalarIn t f.b).toNat 62 13 = 0)) s (startCmd .pfxpin f none none s)

/-- PFXPIN with its gate. -/
def execPfxpin (h : Head) (f : CmdF) (s : State) : Host.Outcome State Fault Refusal := runGated (.pfxpin h f) (sylPfxpin f) s

/-- The limits of an STCFG function (R340). -/
def streamLimits (t : Task) (f : CmdF) (n : Nat) : Bool :=
  let c := (scalarIn t f.c).toNat
  decide (scalarIn t f.a = word n) && decide (bits c 62 10 = 0) &&
    (if bit c 63 then decide (n = 0) && decide (bits c 9 0 = 0) else decide (bits c 9 0 < 768))

/-- STCFG CONFIGURE. -/
def sylStcfgConfigure (f : CmdF) (s : State) : Act :=
  cmdLimits (streamLimits (curTask s) f 0) s
    (withBlock s 10 .load 64 1 false false (scalarIn (curTask s) f.b) (fun a => startCmd .stConfigure f (some a) none s))

/-- STCFG CONFIGURE with its gate. -/
def execStcfgConfigure (h : Head) (f : CmdF) (s : State) : Host.Outcome State Fault Refusal :=
  runGated (.stcfgConfigure h f) (sylStcfgConfigure f) s

/-- STCFG DISABLE. -/
def sylStcfgDisable (f : CmdF) (s : State) : Act := cmdLimits (streamLimits (curTask s) f 1) s (startCmd .stDisable f none none s)

/-- STCFG DISABLE with its gate. -/
def execStcfgDisable (h : Head) (f : CmdF) (s : State) : Host.Outcome State Fault Refusal :=
  runGated (.stcfgDisable h f) (sylStcfgDisable f) s

/-- STCFG EVICT. -/
def sylStcfgEvict (f : CmdF) (s : State) : Act := cmdLimits (streamLimits (curTask s) f 2) s (startCmd .stEvict f none none s)

/-- STCFG EVICT with its gate. -/
def execStcfgEvict (h : Head) (f : CmdF) (s : State) : Host.Outcome State Fault Refusal :=
  runGated (.stcfgEvict h f) (sylStcfgEvict f) s

/-- STCFG RESTORE. -/
def sylStcfgRestore (f : CmdF) (s : State) : Act := cmdLimits (streamLimits (curTask s) f 3) s (startCmd .stRestore f none none s)

/-- STCFG RESTORE with its gate. -/
def execStcfgRestore (h : Head) (f : CmdF) (s : State) : Host.Outcome State Fault Refusal :=
  runGated (.stcfgRestore h f) (sylStcfgRestore f) s

/-! ### At the sequence manager -/

/-- The request word of a command that names a request (R330, R338). -/
def cmdRequest (c : Cmd) : Option Word :=
  match c.kind with
  | .sqclose => some c.a
  | .sqnode => some c.a
  | .sqchk => some c.a
  | .sqacc => some c.a
  | .sqsave => some c.a
  | .sqaccAssist => some c.a
  | .kvgrow => some c.a
  | .kvcommit => some c.a
  | .kvroll => some c.a
  | .kvexport => some c.a
  | .poolPin => some c.b
  | .poolUnpin => some c.b
  | .poolSetent => some c.b
  | .pfxlook => some c.a
  | .pfxins => some c.a
  | .pfxinsAssist => some c.a
  | .pfxpin => some c.a
  | _ => none

/-- The tower whose sequence manager performs a command. -/
def cmdTower (j : Job) (c : Cmd) : BitVec 3 :=
  match cmdRequest c with
  | some w => wordTower w
  | none => agentTower j.who

/-- Is a command a completing form (R336, R379)? -/
def isAssist (c : Cmd) : Bool := decide (c.kind = .sqaccAssist) || decide (c.kind = .pfxinsAssist)

/-- Is a command one of the prefix index? -/
def isPrefix (c : Cmd) : Bool :=
  decide (c.kind = .pfxlook) || decide (c.kind = .pfxins) || decide (c.kind = .pfxinsAssist) || decide (c.kind = .pfxpin)

/-- The partition that a prefix command acts in: tower and number. -/
def cmdPart (s : State) (c : Cmd) : Option (BitVec 3 × Nat) :=
  if isPrefix c then some (wordTower c.a, reqPart s (wordTower c.a) (wordReq c.a)) else none

/-- The command of a job. -/
def jobCmd (j : Job) : Option Cmd :=
  match j.kind with
  | .cmd c => some c
  | _ => none

/-- Does another job hold a command back: an earlier one of its core to the same manager (R332), or one that holds its place for
the same request or partition (R336, R339)? -/
def cmdBlocked (s : State) (j : Job) (c : Cmd) (k : Job) : Bool :=
  match jobCmd k with
  | none => false
  | some d =>
    decide (k.id ≠ j.id) && !(isAssist c && d.posted) &&
      ((decide (k.id < j.id) && decide (k.who = j.who) && decide (cmdTower k d = cmdTower j c)) ||
        (d.posted && (cmdRequest d).isSome && decide ((cmdRequest d).map (fun w => (wordTower w, wordReq w)) =
          (cmdRequest c).map (fun w => (wordTower w, wordReq w)))) ||
        (d.posted && isPrefix d && decide (cmdPart s d = cmdPart s c)))

/-- The pending command that a completing form completes: of its kind, for the same request (DEDUCED, log 89). -/
def pendingFor (s : State) (c : Cmd) (kind : CmdKind) : Option (Job × Cmd) :=
  s.jobs.findSome? (fun k =>
    match jobCmd k with
    | some d =>
      if d.kind = kind ∧ d.posted = true ∧ d.mode = some true ∧ wordTower d.a = wordTower c.a ∧ wordReq d.a = wordReq c.a then some (k, d) else none
    | none => none)

/-- Write a command's reply and release its token (R329, R331, R369). -/
def cmdFinish (s : State) (j : Job) (c : Cmd) (st : Status) (result : Nat) : State :=
  let w := result % 2 ^ 32 * 2 ^ 32 + st.code
  let s1 := match c.reply with
    | some a => storeQuiet s a (leBytes 8 w)
    | none => s
  let s2 := match c.crpy with
    | some r => modTower s1 (agentTower j.who) (fun t => { t with sup := { t.sup with crpy := mapPut t.sup.crpy r (word w) } })
    | none => s1
  endJob s2 { j with landed := 1 }

/-- The completing form of SQACC (R336): the device's own walk, or the supervisor's record once it passes the check. -/
def perfSqaccAssist (s : State) (j : Job) (c : Cmd) : CmdOut :=
  named s j c c.a false (fun s t n => stepped s t n c.c (
    match pendingFor s c .sqacc with
    | none => .done s .state 0
    | some (k, d) =>
      match (if c.d = 0 then some (acceptWalk s t n) else recordWalk s t n c.block2) with
      | none => .done s .badfield 0
      | some w => .done (cmdFinish (acceptFinish s t n d.block w) k d .ok w.2.length) .ok w.2.length))

/-- The completing form of PFXINS (R379). -/
def perfPfxinsAssist (s : State) (j : Job) (c : Cmd) : CmdOut :=
  named s j c c.a false (fun s t n =>
    match pendingFor s c .pfxins with
    | none => .done s .state 0
    | some (k, d) =>
      let i := bits d.c.toNat 31 0
      if bits c.c.toNat 31 0 ≠ i then .done s .state 0
      else
        match insertStatus s t n i d.block with
        | some x => .done (cmdFinish s k d x 0) x 0
        | none =>
          match insertNow s t n i d.block with
          | .done s1 st r => .done (cmdFinish s1 k d st r) st r
          | .wait s1 hold => .wait s1 hold
          | .failed a => .failed a)

/-- What performing a command comes to. -/
def performCmd (s : State) (j : Job) (c : Cmd) : CmdOut :=
  match c.kind with
  | .sqopen => perfSqopen s j c
  | .sqclose => perfSqclose s j c
  | .sqnode => perfSqnode s j c
  | .sqchk => perfSqchk s j c
  | .sqacc => perfSqacc s j c
  | .sqsave => perfSqsave s j c
  | .sqrst => perfSqrst s j c
  | .sqaccAssist => perfSqaccAssist s j c
  | .kvgrow => perfKvgrow s j c
  | .kvcommit => perfKvcommit s j c
  | .kvroll => perfKvroll s j c
  | .kvexport => perfKvexport s j c
  | .poolEnable => perfPoolEnable s j c
  | .poolDisable => perfPoolDisable s j c
  | .poolPin => perfPoolPin s j c
  | .poolUnpin => perfPoolUnpin s j c
  | .poolSetent => perfPoolSetent s j c
  | .poolAlloc => perfPoolAlloc s j c
  | .poolFree => perfPoolFree s j c
  | .pfxlook => perfPfxlook s j c
  | .pfxins => perfPfxins s j c
  | .pfxinsAssist => perfPfxinsAssist s j c
  | .pfxpin => perfPfxpin s j c
  | .stConfigure => perfStConfigure s j c
  | .stDisable => perfStDisable s j c
  | .stEvict => perfStEvict s j c
  | .stRestore => perfStRestore s j c

/-- The ranges of a command's blocks that it reads. -/
def cmdReads (c : Cmd) : List (Nat × Nat) :=
  match c.kind with
  | .sqacc => []
  | .kvexport => []
  | .sqaccAssist => if c.d = 0 then [] else [(c.block2, 128)]
  | _ => if cmdBlockLen c = 0 then [] else [(c.block, cmdBlockLen c)]

/-- Where an error met while a command is performed is found: its block, or its record. -/
def cmdErrAdr (c : Cmd) : Option Nat :=
  match cmdReads c with
  | r :: _ => some r.1
  | [] => (cmdRequest c).map (fun w => reqAdr (wordTower w) (wordReq w))

/-- The mode of the movable function that a command belongs to, at its tower (R336, R337, R379). -/
def cmdAssisted (s : State) (j : Job) (c : Cmd) : Bool :=
  let m := (getTower s (cmdTower j c)).fmr
  match c.kind with
  | .sqacc => m.getLsbD 4
  | .pfxins => m.getLsbD 1
  | .kvgrow => m.getLsbD 2
  | _ => false

/-- Does the retirement of a spire hold a block, the reply word or the record of a command (R65)? -/
def cmdHeld (s : State) (c : Cmd) : Bool :=
  (cmdRanges c).any (fun r => rangeHeld s r.1 r.2) ||
    (match cmdRequest c with
     | some w => rangeHeld s (reqAdr (wordTower w) (wordReq w)) 0x400
     | none => false)

/-- A command's chunk: performed when nothing holds it back; a block with an uncorrectable error makes it a failed chunk. One that
waits keeps the mode in which it began (R379); a tower held in reset performs none (R394). -/
def landCmd (s0 : State) (j : Job) (c : Cmd) (err : DataError) : State :=
  if s0.jobs.any (cmdBlocked s0 j c) ∨ cmdHeld s0 c ∨ (getTower s0 (cmdTower j c)).inReset then s0
  else
    let s := match cmdErrAdr c with
      | some a => applyError s0 a err
      | none => s0
    let fail := fun (a : Word) => endJob s (failChunk j 0 .uncorrected a)
    match (cmdReads c).findSome? (fun r => (firstLost s r.1 r.2).map (fun a => (r.1, a))) with
    | some x =>
      fail (match c.ends.find? (fun e => e.adr = x.1) with
        | some e => endErrAdr e x.2
        | none => deviceAdr x.2)
    | none =>
      match performCmd s j c with
      | .done s1 st r => cmdFinish s1 j c st r
      | .failed a => fail a
      | .wait s1 hold =>
        putJob s1 { j with kind := .cmd { c with posted := c.posted || hold, mode := some (c.mode.getD (cmdAssisted s j c)) } }

/-- CHUNK_LAND (R104, R332): a chunk of a copy, of a peer transfer, or a command's one chunk. -/
def execChunkLand (job chunk : Nat) (err : DataError) (s : State) : Host.Outcome State Fault Refusal :=
  match s.jobs.find? (fun j => j.id = job) with
  | none => .next s
  | some j =>
    if jobFree s j = false then .next s
    else
      match jobCmd j with
      | some c => .next (if chunk = 0 then landCmd s j c err else s)
      | none => .next (landAny s j chunk err)

/-- EVICTION_RETRY (R71): the page-ins of a tower that wait for a page try again. -/
def execEvictionRetry (t : BitVec 3) (s : State) : Host.Outcome State Fault Refusal :=
  .next ((s.pageIns.filter (fun g => decide (g.tower = t) && g.live)).foldl feedPageIn s)

end Sys2Proof.Machine
end

