-- ==== Sys2Proof/Machine/Generator.lean ====
section
/-!
DEFINITION. The steps of the affine generator and its lookup of an exported image (spec 13_memory_instructions.md R291, R292).
-/
namespace Sys2Proof.Machine

/-- What a lookup yields: contribution, valid count, miss flag, the logical page of a TIER_MISS, and poison. -/
structure Looked where
  c : Nat
  valid : Nat
  miss : Bool
  tier : Option Nat
  bad : Option Word
  deriving DecidableEq, Repr

/-- The flat address of the image of the running task's generator. -/
def imageFlat (s : State) : Nat :=
  match s.cur with
  | .core t c => lsFlat t c (curTask s).agu.itab.toNat
  | .sup t => lsFlat t 0 (curTask s).agu.itab.toNat

/-- Lookup (R292) of word 1 + `i`. An image holds at most 63 words beside its header (R120). -/
def lookupImage (s : State) (i : Nat) : Looked :=
  let a := imageFlat s
  let w := i + 1
  let head := readNat s a 8
  let first := bits head 63 32
  let sinks := bits head 31 16
  let e := readNat s (a + 8 * w) 8
  let p := if w ≤ sinks then w - 1 else first + (w - 1 - sinks)
  let valid := min 16 ((curTask s).agu.ilen.toNat - 16 * p)
  let off := fun (x : Nat) => word (x % 2 ^ 20)
  let bad := if badRange s a 8 then some (off a) else if w ≤ 63 ∧ badRange s (a + 8 * w) 8 then some (off (a + 8 * w)) else none
  if 63 < w ∨ bits head 15 0 < w ∨ entV e = false then ⟨0, 0, true, none, bad⟩
  else if entTier e = 1 ∨ entPgin e then ⟨0, valid, true, some p, bad⟩
  else ⟨entBase e * 4096, valid, decide (valid = 0), none, bad⟩

/-- The indices after a step, dimension 0 fastest; none after the last combination. -/
def odometer : List Nat → List (BitVec 16) → Option (List Nat)
  | [], _ => none
  | _ :: _, [] => none
  | i :: is, n :: ns => if i + 1 < n.toNat then some ((i + 1) :: is) else (odometer is ns).map (fun l => 0 :: l)

/-- The address from the direct dimensions, before a lookup's contribution. -/
def directAdr (t : Task) : Word :=
  let g := t.agu
  (List.range 4).foldl (fun x d =>
    if g.ind ∧ g.indd.toNat = d then x else x + word (g.idx.getD d 0) * g.stride.getD d 0) (baseReg t g.gb.toNat)

/-- The generator after a step. -/
def advanceAgu (g : Agu) : Agu :=
  match odometer g.idx g.count with
  | some l => { g with idx := l, next := g.next + g.gp }
  | none => { g with run := false }

/-- One step in the bundle about to issue, when it is due (R291). -/
def genStep (s : State) : State :=
  let t := curTask s
  let g := t.agu
  if g.run = false ∨ g.next ≠ t.issued then s
  else if g.count.any (fun n => decide (n = 0)) then modAgu s (fun g => { g with run := false })
  else
    let adr := directAdr t
    if g.ind then
      let l := lookupImage s (g.idx.getD g.indd.toNat 0)
      let s1 := pushDue s 6 3 (.scalar g.gk.toNat (adr + word l.c)) none 0 l.bad
      let s2 := pushDue s1 6 3 (.scalar (g.gk.toNat + 1) (word l.valid)) none 0 l.bad
      let s3 := pushDue s2 6 3 (.flag g.iflag.toNat l.miss)
      let s4 := match l.tier with
        | some p => tierMiss s3 (imageFlat s) p
        | none => s3
      modAgu s4 advanceAgu
    else modAgu (pushScalar s 6 3 g.gk.toNat adr) advanceAgu

/-- Is the lookup of the step that is due, an MLS read, held by an earlier access of the core (R100, R101, R103, R292)? -/
def genHeld (s : State) : Bool :=
  let t := curTask s
  t.agu.run && decide (t.agu.next = t.issued) && t.agu.ind && !t.agu.count.any (fun n => decide (n = 0)) &&
    mlsHeld s (mkAccess s s.nextId 7 0 (.loadV 0) [⟨0, imageFlat s, 8⟩, ⟨8, imageFlat s + 8 * (t.agu.idx.getD t.agu.indd.toNat 0 + 1), 8⟩])

/-- GENERATOR_STEP (R291): the step of the bundle that an agent is about to issue. -/
def execGeneratorStep (a : Agent) (s : State) : Host.Outcome State Fault Refusal :=
  .next (if ((getCore s a).live ∨ isSup a) ∧ !genHeld { s with cur := a } then genStep { s with cur := a } else s)

end Sys2Proof.Machine
end

