-- ==== Sys2Proof/Machine/Sched.lean ====
section
/-!
DEFINITION. The life of a task: launch, ready queues, pops and gangs, placement, the end of a task, the budget trap and
pre-emption (spec 07_execution_model.md R138 to R157, 16_scheduler.md R352 to R358, 17_traps_preemption.md R372 to R377).
-/
namespace Sys2Proof.Machine

/-! ### Descriptors (R139 to R141) -/

/-- ENTRY. -/
def descEntry (d : Nat) : Word := word (bits d 255 192)
/-- FEAT. -/
def descFeat (d : Nat) : Nat := bits d 191 160
/-- BUDGET. -/
def descBudget (d : Nat) : Nat := bits d 159 128
/-- PRIO. -/
def descPrio (d : Nat) : Nat := bits d 113 110
/-- STAGE. -/
def descStage (d : Nat) : Nat := bits d 109 106
/-- The columns of a gang. -/
def descCols (d : Nat) : Nat := bits d 105 104 + 1
/-- LAYER. -/
def descLayer (d : Nat) : Nat := bits d 103 102
/-- Is the descriptor one of a solo task? -/
def descSolo (d : Nat) : Bool := decide (bits d 105 104 = 0) && decide (descLayer d ≠ 3)
/-- The members that a lead descriptor asks for (R141). -/
def descMembers (d : Nat) : Nat := if descLayer d = 3 then 2 * descCols d else descCols d

/-- The conditions that every descriptor keeps (R140). -/
def descOk (d : Nat) : Bool :=
  canonical (descEntry d) && decide (bits d 255 192 % 4 = 0) && decide (bits d 127 118 ≤ 640) && decide (bits d 117 114 ≤ 8) &&
    decide (bits d 100 0 = 0)

/-- The conditions on a lead descriptor: no MEMBER, and a gang names its layers. -/
def leadOk (d : Nat) : Bool := descOk d && decide (bits d 101 101 = 0) && (decide (descLayer d ≠ 0) || decide (bits d 105 104 = 0))

/-- The conditions on a later member's descriptor (R141). -/
def memberOk (d : Nat) : Bool := descOk d && decide (bits d 105 101 = 1)

/-- The flat address of a context's task table on a tower, while it has one (R139). -/
def taskTable (s : State) (t : BitVec 3) (ctx : BitVec 12) : Option Nat :=
  let r := (mapGet 0 (getTower s t).tkroot ctx.toNat).toNat
  if bit r 63 then some (tmFlat (bits r 62 60) (bits r 35 17 * 2 ^ 17)) else none

/-- The feature bits that some compute core of the package implements (R142, R150). -/
def packageFeatures (s : State) : Nat :=
  ((List.range 512).foldl (fun (m : BitVec 64) k => m ||| (cfmReset k &&& ~~~(getCore s (keyAgent k)).fused)) 0#64).toNat

/-- The descriptors of a launch, or the reason of its refusal (R142, R341) (DEDUCED, log 60). -/
def readDescs (s : State) (t : BitVec 3) (ctx : BitVec 12) (index : Nat) : Except Nat (List Nat) :=
  match taskTable s t ctx with
  | none => .error 1
  | some a =>
    let lead := readNat s (a + 32 * index) 32
    let n := if descSolo lead then 1 else descMembers lead
    let rest := (List.range (n - 1)).map (fun m => readNat s (a + 32 * (index + m + 1)) 32)
    if leadOk lead = false ∨ 4096 < index + n ∨ rest.all memberOk = false then .error 2
    else if (lead :: rest).any (fun d => decide (descFeat d &&& packageFeatures s ≠ descFeat d)) then .error 3
    else .ok (lead :: rest)

/-- A member's descriptor with the lead's PRIO, GCOLS and LAYER (DEDUCED, log 58). -/
def underLead (lead d : Nat) : Nat := setBits (setBits d 113 110 (descPrio lead)) 105 102 (bits lead 105 102)

/-- Does a member of a gang that is still in the queues or on a core have this number? -/
def numberLive (s : State) (num : BitVec 32) : Bool := (findTask s num).isSome

/-- The next serial of a tower whose number is not live. Of one more candidate than there are tasks one is free. -/
def nextSerial (s : State) (t : BitVec 3) : Nat → BitVec 29 → BitVec 29
  | 0, n => n + 1
  | fuel + 1, n => if numberLive s (t ++ (n + 1)) then nextSerial s t fuel (n + 1) else n + 1

/-- `n` fresh task numbers of a tower. -/
def freshNumbers (s : State) (t : BitVec 3) : Nat → BitVec 29 → List (BitVec 29)
  | 0, _ => []
  | n + 1, k =>
    let m := nextSerial s t (s.tasks.length + s.cores.length) k
    m :: freshNumbers s t n m

/-! ### A new task (R143) -/

/-- PATH. -/
def Path.code : Path → Nat
  | .timetable => 0
  | .watch => 1
  | .spawn => 2
  | .supervisor => 3

/-- The state of a task that has never been placed. -/
def newTask (t : BitVec 3) (l : Launch) (num : BitVec 32) (gang : List (BitVec 32)) (m d : Nat) (release : Word) : Task :=
  let s5 := l.path.code * 2 ^ 62 + descStage d * 2 ^ 8 + (gang.length - 1) * 2 ^ 4 + m
  let c := l.coord.toNat
  { Task.blank with
    num := num, ctx := l.ctx, home := t, desc := BitVec.ofNat 256 d, descIndex := l.index + m, member := m, gang := gang,
    status := .ready, path := l.path, source := l.source, release := release, pc := descEntry d
    s := [(1, word (bits c 47 32)), (2, word (bits c 31 16)), (3, word (bits c 15 0)), (4, l.arg), (5, word s5)]
    tbud := word (descBudget d), counted := decide (descBudget d ≠ 0) }

/-- A launch's answer to its spawner (R341). -/
def replyLaunch (s : State) (l : Launch) (x : Word) : State :=
  match l.reply with
  | none => s
  | some (who, num, r, born) =>
    if isSup who then landDue s who born 11 (.scalar r x) none
    else modTaskNum s num (fun t => { t with due := t.due ++ [⟨t.issued, born, 11, .scalar r x, none, 0, none, none⟩] })

/-- Idle cores of a tower request again, and no entry is passed over any more (R355, R375) (DEDUCED, logs 63 and 108). -/
def wakeIdle (s : State) (t : BitVec 3) : State :=
  modTower { s with cores := s.cores.map (fun (c : Nat × CoreSt) =>
      if c.1 / 64 = t.toNat then (c.1, { c.2 with asked := false }) else c) } t
    (fun w => { w with ready := w.ready.map (fun e => { e with skip := false }) })

/-- A refused launch (R142). -/
def refuseLaunch (s : State) (t : BitVec 3) (l : Launch) (reason : Nat) : State :=
  let event := fun (s : State) (src : Nat) => postEvent s t 0x43 (word src) (word l.index) reason 0xFF
  match l.path with
  | .spawn => replyLaunch s l (word (2 ^ 63 + reason))
  | .supervisor => replyLaunch s l (word (2 ^ 63 + reason))
  | _ =>
    match l.source with
    | .watch e => event (watchPut s t e 0x28 63 62 0) 1
    | .timetable _ _ => event (endStall s t none) 0
    | .tick _ => event s 2
    | .plain => event s (if l.path = .watch then 1 else 0)

/-- An accepted launch enters a bank (R142, R352, R353). -/
def acceptLaunch (s : State) (t : BitVec 3) (l : Launch) (bank : Nat) (ds : List Nat) : State :=
  let ns := freshNumbers s t ds.length (getTower s t).serial
  let nums := ns.map (fun n => t ++ n)
  let lead := nums.headD 0
  let release := match l.source with
    | .timetable _ _ => l.release
    | _ => s.pkg.cyc
  let gang := if descSolo (ds.headD 0) then [] else nums
  let ts := (List.range ds.length).map (fun m =>
    (nums.getD m 0, newTask t l (nums.getD m 0) gang m (underLead (ds.headD 0) (ds.getD m 0)) release))
  let s1 := { s with
    tasks := ts.foldl (fun (m : FMap Task) (x : BitVec 32 × Task) => mapPut m x.1.toNat x.2) s.tasks
    gangs := if gang = [] then s.gangs else s.gangs ++ [⟨lead, gang, [], 0, 0, [], [], false⟩] }
  let s2 := modTower s1 t (fun w =>
    { w with serial := ns.getLastD w.serial, ready := w.ready ++ [⟨lead, bank, s.pkg.cyc, 0, 0, none, false⟩] })
  let s3 := match l.path, l.source with
    | .watch, .watch e => watchPut s2 t e 0x30 63 0 (min (watchGet s2 t e 0x30 63 0 + 1) (2 ^ 64 - 1))
    | _, _ => s2
  replyLaunch (wakeIdle s3 t) l (lead.setWidth 64)

/-- Entries of a bank. -/
def bankLoad (w : TowerSt) (bank : Nat) : Nat := (w.ready.filter (fun e => decide (e.bank = bank))).length

/-- Is a launch a SPAWN's, for which its spawner found a place (R341, R352)? -/
def hasPlace (l : Launch) : Bool :=
  match l.path with
  | .spawn => true
  | .supervisor => true
  | _ => false

/-- Is a launch not the next to enter: does an earlier one of its path wait, or, where launches are held for want of places, any
earlier held one (R352)? -/
def launchBehind (l : Launch) (w : TowerSt) : Bool :=
  !hasPlace l && w.launches.any (fun x =>
    decide (x.id < l.id) && (decide (x.path = l.path) || (!hasPlace x && decide (16384 < w.ready.length + w.launches.length))))

/-- TASK_LAUNCH (R142): launch `k` of a tower, its descriptors read, enters the bank drawn for it or is refused. -/
def execTaskLaunch (t : BitVec 3) (k : Nat) (bank : BitVec 4) (s : State) : Host.Outcome State Fault Refusal :=
  let w := getTower s t
  match w.launches.find? (fun l => l.id = k) with
  | none => .next s
  | some l =>
    if s.acc.any (fun x => l.after.contains x.id) ∨ launchBehind l w = true then .next s
    else
      let s1 := setTower s t { w with launches := w.launches.filter (fun x => x.id ≠ k) }
      match readDescs s t l.ctx l.index with
      | .error r => .next (refuseLaunch s1 t l r)
      | .ok ds => if bankLoad w bank.toNat < 1024 then .next (acceptLaunch s1 t l bank.toNat ds) else .next s

/-! ### Who can take what (R151, R354) -/

/-- Is the context's budget on a tower above zero (R148)? -/
def budOpen (s : State) (t : BitVec 3) (ctx : BitVec 12) : Bool := decide (0 < (mapGet 0 (getTower s t).bud ctx.toNat).toInt)

/-- Is a core free to be asked: no task, no reservation (R355)? -/
def coreIdle (s : State) (t : BitVec 3) (c : BitVec 6) : Bool :=
  let x := getCore s (.core t c)
  !x.live && x.reserved.isNone

/-- Does a core hold every feature of a descriptor (R151)? -/
def featuresOk (s : State) (t : BitVec 3) (c : BitVec 6) (d : Nat) : Bool :=
  decide (descFeat d &&& (getCore s (.core t c)).cfm.toNat = descFeat d)

/-- The place that a saved task must resume on: its core, for a bus group with a scratchpad or fused source (R319). -/
def boundCore (s : State) (k : Task) : Option (BitVec 6) :=
  match (busOf s k.num).bind (fun g => memberOf g k.num) with
  | some m => if [m.cfg, m.next].any (fun c => c.any (fun x => decide (x.src = 3) || decide (x.src = 4))) then k.lastCore else none
  | none => none

/-- Can a core take a solo task (R354)? -/
def canTake (s : State) (t : BitVec 3) (c : BitVec 6) (k : Task) : Bool :=
  let d := k.desc.toNat
  featuresOk s t c d && (decide (descLayer d = 0) || decide (descLayer d = coreLayer c + 1)) && budOpen s t k.ctx &&
    (match boundCore s k with
     | some b => decide (b = c)
     | none => true)

/-- The members of a gang that have not ended, as tasks, or the one task of a solo entry. -/
def entryTasks (s : State) (lead : BitVec 32) : List Task :=
  match s.gangs.find? (fun g => g.lead = lead) with
  | some g => g.members.filterMap (findTask s)
  | none => (findTask s lead).toList

/-- Is an entry a gang's? -/
def entryGang (s : State) (lead : BitVec 32) : Bool := s.gangs.any (fun g => decide (g.lead = lead))

/-- The core of a gang member when the gang stands at column `c0` of a cluster (R141). -/
def memberCode (k : Task) (cluster c0 : Nat) : BitVec 6 :=
  let d := k.desc.toNat
  let w := descCols d
  let layer := if descLayer d = 1 then 0 else if descLayer d = 2 then 1 else if k.member < w then 0 else 1
  coreCode layer cluster (c0 + k.member % w)

/-- The cores at a place of the members of a gang that are to be placed. -/
def gangCodes (ks : List Task) (cluster c0 : Nat) : List (BitVec 32 × BitVec 6) :=
  (ks.filter (fun k => decide (k.status ≠ .placed))).map (fun k => (k.num, memberCode k cluster c0))

/-- Does every member's core qualify at a place (R151, R319, R356)? (DEDUCED, log 62). A member that stayed on its core must
stand there already (DEDUCED, log 97). -/
def gangFits (s : State) (t : BitVec 3) (ks : List Task) (cluster c0 : Nat) : Bool :=
  ks.all (fun k =>
    if k.status = .placed then decide (findPlaced s k.num = some (.core t (memberCode k cluster c0)))
    else
      featuresOk s t (memberCode k cluster c0) k.desc.toNat &&
        (match boundCore s k with
         | some b => decide (b = memberCode k cluster c0)
         | none => true))

/-- The lowest column of a cluster at which a gang fits (R356). -/
def gangColumn (s : State) (t : BitVec 3) (ks : List Task) (cluster : Nat) : Option Nat :=
  let w := (ks.map (fun k => descCols k.desc.toNat)).headD 1
  (List.range (5 - w)).find? (gangFits s t ks cluster)

/-- Can a requesting core take an entry (R354), which was written in an earlier cycle (R352)? A gang's core must lie on a layer
that the gang names. -/
def entryOpen (s : State) (t : BitVec 3) (c : BitVec 6) (e : REntry) : Bool :=
  e.backoff.isNone && !e.skip && decide (e.entry ≠ s.pkg.cyc) &&
    (match entryTasks s e.num with
     | [] => false
     | k :: ks =>
       if entryGang s e.num then
         budOpen s t k.ctx &&
           (decide (descLayer k.desc.toNat = 3) || decide (descLayer k.desc.toNat = coreLayer c + 1)) &&
           (k :: ks).all (fun x => (boundCore s x).all (fun b => decide (coreCluster b = coreCluster c)) &&
              (match findPlaced s x.num with
               | some (.core _ b) => decide (coreCluster b = coreCluster c)
               | _ => true))
       else canTake s t c k)

/-- EP (R353). -/
def entryPrio (s : State) (e : REntry) : Nat :=
  match entryTasks s e.num with
  | [] => 0
  | k :: _ => min (descPrio k.desc.toNat + e.age) 31

/-- Is one entry ranked before another (R353)? -/
def rankedBefore (s : State) (x y : REntry) : Bool :=
  let p := entryPrio s x
  let q := entryPrio s y
  decide (q < p) || (decide (p = q) &&
    (decide (x.entry.toNat < y.entry.toNat) || (decide (x.entry = y.entry) && decide (x.num.toNat < y.num.toNat))))

/-- The best-ranked of a list. -/
def bestEntry (s : State) : List REntry → Option REntry
  | [] => none
  | e :: l =>
    match bestEntry s l with
    | none => some e
    | some f => if rankedBefore s f e then some f else some e

/-- The head of a bank for a requesting core (R354). -/
def bankHead (s : State) (t : BitVec 3) (c : BitVec 6) (bank : Nat) : Option REntry :=
  bestEntry s ((getTower s t).ready.filter (fun e => decide (e.bank = bank) && entryOpen s t c e))

/-- The entry that a pop with its two drawn banks takes (R355). -/
def popChoice (s : State) (t : BitVec 3) (c : BitVec 6) (i j : Nat) : Option REntry :=
  match bankHead s t c i, bankHead s t c j with
  | some x, some y => if rankedBefore s y x then some y else some x
  | some x, none => some x
  | none, some y => some y
  | none, none => bestEntry s ((getTower s t).ready.filter (entryOpen s t c))

/-! ### Placement (R143, R157, R356, R377) -/

/-- A handle as it is after a resumption: not valid once the context's epoch has changed (R88). -/
def restoreHandle (s : State) (k : Task) (h : Handle) : Handle :=
  if k.epoch = epochOf s k.ctx then h else { h with bits := h.bits &&& ~~~(1#128 <<< 127) }

/-- A record as it is after a resumption: revoked where its entry's generation is no longer the saved one (R88), or where no table
holds the entry any more. -/
def restoreRec (s : State) (k : Task) (r : Rec) : Rec :=
  if r.loaded = false ∨ r.revoked = true then r
  else
    match entryFlat s k.home (BitVec.ofNat 12 r.ctx) (BitVec.ofNat 16 r.index) with
    | some a => if bits (readNat s a 32) 63 48 = r.field 63 48 then r else { r with revoked := true }
    | none => { r with revoked := true }

/-- The same for a result that was still due at the save. -/
def restoreDest (s : State) (k : Task) (d : Dest) : Dest :=
  match d with
  | .handle r h => .handle r (restoreHandle s k h)
  | .record r x => .record r (restoreRec s k x)
  | d => d

/-- The registers of a task as a resumption leaves them (R88, R377). A first placement finds none to check. -/
def restoreRegs (s : State) (k : Task) : Task :=
  if k.placedOnce then
    { k with
      h := k.h.map (fun h => (h.1, restoreHandle s k h.2))
      b := k.b.map (fun b => (b.1, restoreRec s k b.2))
      due := k.due.map (fun d => { d with dst := restoreDest s k d.dst }) }
  else k

/-- Saved control-store banks go back into a core whose CSLD state holds their generations (R327). -/
def restoreBanks (k : Task) (x : CoreSt) : CoreSt :=
  { x with
    bank0 := ((k.banks.find? (fun b => b.1 = x.gen0)).map Prod.snd).getD x.bank0
    bank1 := ((k.banks.find? (fun b => b.1 = x.gen1)).map Prod.snd).getD x.bank1 }

/-- The causes for which a budget trap is due: bit 0 TASK, bit 1 CONTEXT (R149). -/
def budgetCause (s : State) (t : BitVec 3) (k : Task) : BitVec 2 :=
  (if k.counted ∧ k.tbud.toInt ≤ 0 then 1 else 0) ||| (if budOpen s t k.ctx then 0 else 2)

/-- A timed copy goes with its task (R111). -/
def moveJob (num : BitVec 32) (a : Agent) (j : Job) : Job := if j.num = num ∧ j.waiting then { j with who := a } else j

/-- A bus group stands where its members stand. -/
def moveBus (num : BitVec 32) (t : BitVec 3) (c : BitVec 6) (g : BusGrp) : BusGrp :=
  if g.members.any (fun m => decide (m.num = num)) then { g with tower := t, layer := busLayer c, cluster := busCluster c } else g

/-- What a first placement means to the source of a task (R191, R359). -/
def firstPlaced (s : State) (k : Task) : State :=
  if k.placedOnce then s
  else
    match k.source with
    | .watch e => onPlaced s k.home e
    | .timetable e _ => endStall s k.home (some e)
    | _ => s

/-- The answer of an SVC that came while the task was away goes to its register (R351). -/
def takeAnswer (k : Task) : Task :=
  match k.svcReg, k.svcVal with
  | some r, some x =>
    { k with svcReg := none, svcVal := none, due := k.due ++ [⟨k.issued, k.issued, 11, .scalar r x, none, 0, none, none⟩] }
  | _, _ => k

/-- A macro goes on at the same scratchpad offsets of the core that its task is placed on (R151, R327). -/
def macroTo (t : BitVec 3) (c : BitVec 6) (m : Macro) : Macro := { m with block := word (lsFlat t c (m.block.toNat % 2 ^ 22)) }

/-- Put a READY task on a core. -/
def placeTask (s : State) (t : BitVec 3) (c : BitVec 6) (num : BitVec 32) : State :=
  match mapGet? s.tasks num.toNat with
  | none => s
  | some k =>
    let k0 := takeAnswer (restoreRegs s k)
    let k1 := { k0 with
      macros := k0.macros.map (macroTo t c), status := .placed, placedOnce := true, slot := none, frozenSave := false, lastCore := some c, banks := []
      trapDue := if k.trapDue = 0 then 0 else budgetCause s t k }
    let s0 := if k.placedOnce then latchBuffer s t c k0 else s
    let s1 := { s0 with
      tasks := mapDel s.tasks num.toNat, jobs := s.jobs.map (moveJob num (.core t c)), buses := s.buses.map (moveBus num t c) }
    let s2 := modCore s1 (.core t c) (fun x =>
      { restoreBanks k x with
        live := true, task := k1, frozen := false, reserved := none, asked := false, preempt := false, kill := false, suspend := false
        macced := false, masked := false, asking := false })
    firstPlaced s2 k

/-- Take an entry out of the queues. -/
def dropEntry (s : State) (t : BitVec 3) (lead : BitVec 32) : State :=
  modTower s t (fun w => { w with ready := w.ready.filter (fun e => e.num ≠ lead) })

/-- Place every member of a gang in one step. -/
def placeGang (s : State) (t : BitVec 3) (lead : BitVec 32) (codes : List (BitVec 32 × BitVec 6)) : State :=
  let s0 := modGang s lead (fun g => { g with barrier := false })
  let s1 := modTower (dropEntry s0 t lead) t (fun w => { w with claims := w.claims.filter (fun x => x.lead ≠ lead) })
  codes.foldl (fun s x => placeTask s t x.2 x.1) s1

/-! ### Drain claims (R357) -/

/-- The codes that a claim of a gang covers. -/
def claimCodes (s : State) (w : TowerSt) (lead : BitVec 32) : List (BitVec 32 × BitVec 6) :=
  match w.claims.filter (fun x => x.lead = lead) with
  | [] => []
  | x :: l => gangCodes (entryTasks s lead) x.cluster (l.foldl (fun m y => min m y.col) x.col)

/-- Reserve every free core that a claim covers. -/
def reserveClaimed (s : State) (t : BitVec 3) : State :=
  let w := getTower s t
  w.ready.foldl (fun s e =>
    (claimCodes s w e.num).foldl (fun s x =>
      if coreIdle s t x.2 then modCore s (.core t x.2) (fun k => { k with reserved := some e.num }) else s) s) s

/-- The lowest-numbered cluster in which a gang's members qualify, with its column. -/
def pressPlace (s : State) (t : BitVec 3) (ks : List Task) : Option (Nat × Nat) :=
  (List.range 8).findSome? (fun cl => (gangColumn s t ks cl).map (fun c => (cl, c)))

/-- A pressing gang takes its claim, if its cluster has none. -/
def pressEntry (t : BitVec 3) (s : State) (e : REntry) : State :=
  let w := getTower s t
  let ks := entryTasks s e.num
  if e.fails < 8 ∨ ks = [] ∨ w.claims.any (fun x => decide (x.lead = e.num)) then s
  else
    match pressPlace s t ks with
    | none => s
    | some (cl, c0) =>
      if w.claims.any (fun x => decide (x.cluster = cl)) then s
      else
        let n := (ks.map (fun k => descCols k.desc.toNat)).headD 1
        setTower s t { w with claims := w.claims ++ (List.range n).map (fun i => ⟨e.num, cl, c0 + i⟩) }

/-- Does a claim still stand: its gang is in the queues and qualifies there? -/
def claimStands (s : State) (t : BitVec 3) (w : TowerSt) (x : Claim) : Bool :=
  w.ready.any (fun e => decide (e.num = x.lead)) &&
    (claimCodes s w x.lead).all (fun k => (findTask s k.1).all (fun (y : Task) => featuresOk s t k.2 y.desc.toNat)) &&
    !(claimCodes s w x.lead).isEmpty

/-- Give back the reservations for a gang that no claim of that gang covers. -/
def dropReserved (s : State) (t : BitVec 3) : State :=
  let w := getTower s t
  let held := w.ready.flatMap (fun e => (claimCodes s w e.num).map (fun x => (e.num, 64 * t.toNat + x.2.toNat)))
  { s with
    cores := s.cores.map (fun (c : Nat × CoreSt) =>
      if c.1 / 64 = t.toNat ∧ c.2.reserved.any (fun n => entryGang s n && !held.contains (n, c.1)) then
        (c.1, { c.2 with reserved := none, asked := false })
      else c) }

/-- Bring claims and reservations up to date. -/
def refreshClaims (s : State) (t : BitVec 3) : State :=
  let s1 := modTower s t (fun w => { w with claims := w.claims.filter (claimStands s t w) })
  let s2 := (getTower s1 t).ready.foldl (pressEntry t) s1
  reserveClaimed (dropReserved s2 t) t

/-! ### The queues' entry of a saved task (R157, R358), and the end of a task (R138, R152, R191) -/

/-- A bank with room, from the drawn one on (DEDUCED, log 66). -/
def roomBank (w : TowerSt) (draw : Nat) : Nat :=
  match (List.range 16).find? (fun i => bankLoad w ((draw + i) % 16) < 1024) with
  | some i => (draw + i) % 16
  | none => draw % 16

/-- Does a member of a gang stay on its core: it is placed and no pre-emption of it is asked for? -/
def staysPlaced (s : State) (k : Task) : Bool := (findPlaced s k.num).any (fun a => !(getCore s a).preempt)

/-- Enter a saved task into the queues with AGE 0, or its gang once every live member is saved and READY or stays on its core
because its own save failed (R157, R358, R375; DEDUCED, log 97). -/
def requeue (s : State) (k : Task) : State :=
  let t := k.home
  let lead := gangLead k
  let ks := entryTasks s lead
  if ks.all (fun x => decide (x.status = .ready) || staysPlaced s x) ∧ ks.any (fun x => decide (x.status = .ready)) = true ∧
      (getTower s t).ready.all (fun e => decide (e.num ≠ lead)) then
    let w := getTower s t
    let e : REntry := ⟨lead, roomBank w (Config.freeNat s.free), s.pkg.cyc, 0, 0, none, false⟩
    wakeIdle (setTower { s with free := s.free + 1 } t { w with ready := w.ready ++ [e] }) t
  else s

/-- A core becomes free and may ask again. -/
def freeCore (s : State) (t : BitVec 3) (c : BitVec 6) : State :=
  let s1 := modCore s (.core t c) (fun x =>
    { x with
      live := false, frozen := false, fsyn := x.fsyn &&& ~~~(1#64 <<< 61), preempt := false, kill := false, suspend := false, asked := false
      macced := false, masked := false, asking := false })
  reserveClaimed s1 t

/-- Is a task the last of its instance: a solo task, or the last member of its gang? (DEDUCED, log 61). -/
def lastOfInstance (s : State) (k : Task) : Bool := (gangOf s k.num).all (fun g => decide (g.members.length ≤ g.ended.length + 1))

/-- Enter the members of a gang that are left, once one that held them has ended or stays on its core: with no entry yet
(R155, R157). -/
def requeueRest (s : State) (k : Task) : State :=
  let ks := entryTasks s (gangLead k)
  if k.gang = [] ∨ ks = [] then s else requeue s k

/-- What the end of a task ends: its bus membership, bindings and images, its instance of a watch entry, its place in its
gang and that gang's barrier (R39, R121, R191, R342). -/
def endRecords (s : State) (k : Task) : State :=
  let s1 := unbindTask (detachBus s k.num) k.num
  let s2 := match k.source with
    | .watch e => if lastOfInstance s1 k then onEnded s1 k.home e else s1
    | _ => s1
  let s3 := modGang s2 k.num (fun g => closeEpisode { g with ended := k.member :: g.ended, arrived := g.arrived.filter (· ≠ k.member) })
  let s4 := issueAgain s3 (((gangOf s3 k.num).map passedOf).getD [])
  requeueRest { s4 with gangs := s4.gangs.filter (fun g => decide (g.ended.length < g.members.length)) } k

/-- The end of the task on a core: its accesses and copies go on (R111). -/
def endPlaced (s : State) (t : BitVec 3) (c : BitVec 6) : State :=
  let k := (getCore s (.core t c)).task
  endRecords (freeCore (dropWalks s (.core t c)) t c) k

/-- Remove a READY or SUSPENDED task (R152): its timed copies go with it. -/
def removeSaved (s : State) (k : Task) : State :=
  let s1 := { s with tasks := mapDel s.tasks k.num.toNat, jobs := s.jobs.filter (fun j => !(decide (j.num = k.num) && j.waiting)) }
  let s2 := endRecords s1 k
  let lead := gangLead k
  let s3 := if (entryTasks s2 lead).all (fun x => decide (x.status = .placed)) then dropEntry s2 k.home lead else s2
  endStall (refreshClaims s3 k.home) k.home none

/-- Kill a task: at once where it stands at a group boundary or is frozen, or where its freeze was resolved in this cycle, else at
its next group end (R152, R373). -/
def killTask (s : State) (num : BitVec 32) : State :=
  match findPlaced s num with
  | some (.core t c) =>
    let x := getCore s (.core t c)
    if x.frozen ∨ x.task.group = 0 ∨ x.thawed = some s.pkg.cyc then endPlaced s t c else modCore s (.core t c) (fun x => { x with kill := true })
  | some (.sup _) => s
  | none =>
    match mapGet? s.tasks num.toNat with
    | some k => removeSaved s k
    | none => s

/-- A kill asked for earlier is taken from a freeze, or at a group boundary (R145, R373). -/
def takeKill (s : State) (t : BitVec 3) (c : BitVec 6) : State :=
  let x := getCore s (.core t c)
  if x.live ∧ x.kill ∧ (x.frozen ∨ x.task.group = 0) then endPlaced s t c else s

/-- The FAULT event of a task killed for lost state: its FADR gives the syndrome, with UNCORRECTED (R378). -/
def killLost (s : State) (t : BitVec 3) (core : Nat) (num : BitVec 32) : State :=
  postEvent s t 0x41 (fsynOf false 4 FCode.uncorrected.num 0) (num.setWidth 64) 0 core

/-! ### Save slots (R375, R376) -/

/-- The save slots that the saved tasks of a context hold on a tower. -/
def slotsHeld (s : State) (t : BitVec 3) (ctx : BitVec 12) : List Nat :=
  (s.tasks.filterMap (fun k => if k.2.home = t ∧ k.2.ctx = ctx then k.2.slot else none)).foldl (fun l n => insertNat n l) []

/-- The address of a save slot (R375). -/
def slotVa (t : BitVec 3) (n : Nat) : Word := word (0xFFF8_0000_0000_0000 + t.toNat * 0x2_0000_0000 + n * 0x20_0000)

/-- The pieces of a save slot, where its pages are mapped with RD and WR in TM of the tower (R375). -/
def slotPieces (s : State) (t : BitVec 3) (ctx : BitVec 12) (n : Nat) : Option (List Nat) :=
  match areaPieces s t ctx (slotVa t n) 15 32, areaPieces s t ctx (slotVa t n) 14 32 with
  | some ps, some _ => if ps.all (fun a => isTm a && decide (tmTower a = t.toNat)) then some ps else none
  | _, _ => none

/-- Write bytes of a save slot, over the pieces that they meet. -/
def slotWrite (ps : List Nat) (s : State) (x : Nat × List Byte) : State :=
  (List.range ps.length).foldl (fun s i =>
    let lo := max x.1 (i * 2 ^ 16)
    let hi := min (x.1 + x.2.length) ((i + 1) * 2 ^ 16)
    if lo < hi then storeQuiet s (areaByte ps lo) ((x.2.drop (lo - x.1)).take (hi - lo)) else s) s

/-- The bytes of a region whose inner layout the spec does not give, as an open function of what the region holds
(DESIGN CHOICE, log 41). -/
def regionBytes (off n : Nat) (xs : List Nat) : List Byte := (List.range n).map (Config.slotByte off xs)

/-- A format as two numbers. -/
def fmtNats (f : Option Fmt) : List Nat :=
  match f with
  | some x => [x.code.toNat + 1, x.k]
  | none => [0, 0]

/-- What a slot's header holds (R376): `valid` has a bit for each of the other regions in the order of the table. -/
def headerNats (k : Task) (valid : Nat) : List Nat :=
  let d := k.desc.toNat
  [k.num.toNat, k.ctx.toNat, k.descIndex, k.pc.toNat, k.release.toNat, descPrio d, descStage d, k.member, valid] ++
    (List.range 64).map (fun r => (scalarReg k r).toNat) ++ [k.c.toNat] ++ (List.range 8).map (fun r => (mapGet 0 k.t r).toNat) ++
    k.loops.flatMap (fun l => [l.count.toNat, l.active.toNat, l.start.toNat, l.stop.toNat, l.order]) ++
    (List.range 16).map (fun r => (mapGet 0 k.a r).toNat) ++ k.agu.count.map BitVec.toNat ++ k.agu.stride.map BitVec.toNat ++
    [k.agu.ind.toNat, k.agu.indd.toNat, k.agu.itab.toNat, k.agu.ilen.toNat, k.agu.iflag.toNat, k.agu.run.toNat, k.agu.gb.toNat,
      k.agu.gk.toNat, k.agu.gp, k.agu.next] ++ k.agu.idx ++
    [k.fps.toNat, k.earea.toNat, k.tbud.toNat, k.evp.toNat, k.svcReg.isSome.toNat, k.epoch] ++
    k.h.flatMap (fun h => [h.1, h.2.bits.toNat, h.2.pa.toNat]) ++ k.b.flatMap (fun b => [b.1, b.2.bits.toNat, b.2.revoked.toNat])

/-- What a timed copy that has not issued holds (R111). -/
def timedNats (j : Job) : List Nat :=
  [j.tok, j.born, j.landed.toNat, j.failed.toNat] ++
    (match j.kind with
     | .copy src dst rows len w time =>
       [src.adr, intNat src.stride, src.recd, dst.adr, intNat dst.stride, dst.recd, rows, len, (w.map CopyEnd.adr).getD 0, time.toNat]
     | .pxfer src chip gs len flag => [src.adr, chip.toNat, gs.toNat, len, (flag.map (fun f => f.1.toNat)).getD 0]
     | .cmd c => [c.a.toNat, c.b.toNat, c.c.toNat, c.d.toNat])

/-- The regions of a task's slot that hold something of it (R376), by offset: a region that was never written since the task was
first placed is left out (DEDUCED, log 120). `latches` says that the latch rings of a snapshot go too. -/
def slotRegions (s : State) (k : Task) (latches : Bool) : List (Nat × List Byte) :=
  let opt := fun (c : Bool) (x : Nat × List Byte) => if c then [x] else []
  let timed := s.jobs.filter (fun j => decide (j.num = k.num) && j.waiting)
  let rings := latches && decide (k.rings ≠ Rings.empty)
  opt (!k.q.isEmpty) (0x1000, (List.range 16).flatMap (fun n => leBytes 256 (predReg k n).toNat)) ++
    opt (!timed.isEmpty) (0x2000, regionBytes 0x2000 0x800 (timed.flatMap timedNats)) ++
    opt (decide (k.gaI ≠ ⟨none, 0, []⟩) || decide (k.gaD ≠ ⟨none, [], [], none⟩))
      (0x2800, regionBytes 0x2800 0x800 (fmtNats k.gaI.fmt ++ k.gaI.recd :: k.gaI.offs ++ fmtNats k.gaD.fmt ++ k.gaD.a.map intNat ++ k.gaD.ea.map intNat)) ++
    opt (!k.macros.isEmpty) (0x3000, regionBytes 0x3000 0x1000 (k.macros.flatMap (fun m =>
      [m.gen.toNat, m.z, m.block.toNat, m.request.toNat, m.status, m.bundle.toNat, m.step] ++ (m.st.map (fun l => l.map BitVec.toNat)).flatten))) ++
    opt (!k.due.isEmpty || k.pend.isSome) (0x4000, regionBytes 0x4000 0x10000 (bufferNats k)) ++
    opt (decide ({ k.arr with z := [], valid := [] } ≠ { Arr.zero with z := [], valid := [] }))
      (0x14000, regionBytes 0x14000 0xC000 (fmtNats k.arr.afmt ++ fmtNats k.arr.bfmt ++ [k.arr.cols.toNat, k.arr.half.toNat] ++
        k.arr.a.map intNat ++ k.arr.ea.map intNat ++ k.arr.e ++ k.arr.x.map intNat ++
        (match k.arr.blk with
         | some b => 1 :: b.tile :: b.s :: b.p.map intNat
         | none => [0]))) ++
    (if k.arr.z = Arr.zero.z ∧ k.arr.valid = Arr.zero.valid then []
     else (List.range (tiles k)).map (fun n =>
       (0x20000 + 0xC000 * n, regionBytes 0x20000 0xC000 ((k.arr.valid.getD n true).toNat :: (k.arr.z.getD n []).map intNat)))) ++
    (if k.v.isEmpty then [] else (List.range (vregs k)).map (fun n => (0x80000 + 2048 * n, leBytes 2048 (mapGet 0 k.v n).toNat))) ++
    opt (!k.banks.isEmpty) (0x1C0000, regionBytes 0x1C0000 0x8000 (k.banks.flatMap (fun b => b.1.toNat :: b.2.flatMap (fun r => [r.1, r.2.toNat])))) ++
    (if rings then
      (List.range 16).map (fun n => (0x1C8000 + 2048 * n, leBytes 2048 (((ringOf k.rings n).getD (n % 4) (0, none)).1).toNat)) ++
        (List.range 8).flatMap (fun n =>
          [(0x1D0000 + 8 * n, leBytes 8 (latchS k.rings.sca n).toNat), (0x1D0040 + 8 * n, leBytes 8 (latchS k.rings.scb n).toNat)]) ++
        [(0x1D0080, regionBytes 0x1D0080 0xF80 [k.rings.vec.length, k.rings.mtx.length, k.rings.mls.length, k.rings.gat.length,
          k.rings.sca.length, k.rings.scb.length])]
     else [])

/-- The valid bits of a header: one for each region of the table behind the header, set where it is written. -/
def slotValid (l : List (Nat × List Byte)) : Nat :=
  ([0x1000, 0x2000, 0x2800, 0x3000, 0x4000, 0x14000, 0x20000, 0x80000, 0x1C0000, 0x1C8000].zipIdx.map (fun x =>
    if l.any (fun r => decide (r.1 = x.1)) then 2 ^ x.2 else 0)).foldl (· + ·) 0

/-- Everything that a save writes into a task's slot (R376). -/
def slotImage (s : State) (k : Task) (latches : Bool) : List (Nat × List Byte) :=
  let l := slotRegions s k latches
  (0, regionBytes 0 0x1000 (headerNats k (slotValid l))) :: l

/-- Can the slot of a saved task be translated (R375)? -/
def slotOpen (s : State) (t : BitVec 3) (k : Task) : Bool := k.slot.all (fun n => (slotPieces s t k.ctx n).isSome)

/-- Can the slots of all tasks of an entry be translated? -/
def slotsOpen (s : State) (t : BitVec 3) (lead : BitVec 32) : Bool := (entryTasks s lead).all (slotOpen s t)

/-- Has the slot of a saved task lost data that its save wrote (R378)? -/
def slotLost (s : State) (t : BitVec 3) (k : Task) : Bool :=
  match k.slot.bind (slotPieces s t k.ctx) with
  | some ps => (slotImage s k k.frozenSave).any (fun x =>
      (List.range ps.length).any (fun i =>
        let lo := max x.1 (i * 2 ^ 16)
        let hi := min (x.1 + x.2.length) ((i + 1) * 2 ^ 16)
        decide (lo < hi) && badRange s (areaByte ps lo) (hi - lo)))
  | none => false

/-- Change an entry of a tower. -/
def modEntry (s : State) (t : BitVec 3) (num : BitVec 32) (f : REntry → REntry) : State :=
  modTower s t (fun w => { w with ready := w.ready.map (fun e => if e.num = num then f e else e) })

/-- A restore whose slot cannot be translated: the event; the entry stays, passed over by pops until an entry is written
(R375; DEDUCED, log 108). -/
def restoreFault (s : State) (t : BitVec 3) (lead : BitVec 32) : State :=
  match (entryTasks s lead).find? (fun k => !slotOpen s t k) with
  | some k =>
    postEvent (modEntry s t lead (fun e => { e with skip := true })) t 0x53 (slotVa t (k.slot.getD 0)) (k.num.setWidth 64) 0 0xFF
  | none => s

/-- The tasks of an entry whose slots have lost data are killed at their restore, each with its event (R378). -/
def dropLost (s : State) (t : BitVec 3) (lead : BitVec 32) : State :=
  ((entryTasks s lead).filter (slotLost s t)).foldl (fun s k => removeSaved (killLost s t 0xFF k.num) k) s

/-! ### The pop and the gang (R355 to R357) -/

/-- The two-phase reservation of a gang, made and committed or released in one step (R356); a failure starts a back-off, and
the eighth makes the gang pressing (R357). `draw` is the random source's number. -/
def reserveGang (s : State) (t : BitVec 3) (c : BitVec 6) (e : REntry) (draw : Nat) : State :=
  let ks := entryTasks s e.num
  let codes := match gangColumn s t ks (coreCluster c) with
    | some c0 => gangCodes ks (coreCluster c) c0
    | none => []
  if !codes.isEmpty ∧ codes.all (fun x => coreIdle s t x.2) then refreshClaims (placeGang s t e.num codes) t
  else
    let n := e.fails + 1
    let wait := (1 + draw % 2 ^ min n 10) * 1600
    let s1 := modEntry s t e.num (fun x => { x with fails := n, backoff := some (s.pkg.cyc + word wait) })
    if n < 8 then s1 else refreshClaims s1 t

/-- The pop of a core that a priority pre-emption freed for a solo task (R358): that task, while it can still be taken. -/
def popReserved (s : State) (t : BitVec 3) (c : BitVec 6) (num : BitVec 32) : State :=
  let s1 := modCore s (.core t c) (fun x => { x with reserved := none, asked := false })
  match (getTower s t).ready.find? (fun e => e.num = num) with
  | some e =>
    if entryOpen s t c e = false then s1
    else if slotsOpen s1 t num = false then restoreFault s1 t num
    else if (entryTasks s1 num).any (slotLost s1 t) then dropLost s1 t num
    else placeTask (dropEntry s1 t num) t c num
  | none => s1

/-- Does a core run a task with MTX in its FEAT (R150, R355)? -/
def runsMatrix (s : State) (t : BitVec 3) (c : BitVec 6) : Bool :=
  let x := getCore s (.core t c)
  x.live && (descFeat x.task.desc.toNat).testBit 4

/-- The core that a pop by core `c` gives a solo task: `c`, or, for a task popped before, where the column partner of `c` runs a
matrix task, the first free core that can take it and whose partner runs none (R355; DEDUCED, log 59). -/
def popTarget (s : State) (t : BitVec 3) (c : BitVec 6) (k : Task) : BitVec 6 :=
  if k.placedOnce && runsMatrix s t (c ^^^ 32) then
    (((List.range 64).map (BitVec.ofNat 6)).find? (fun d =>
      coreIdle s t d && canTake s t d k && !runsMatrix s t (d ^^^ 32))).getD c
  else c

/-- POP (R355): a free core's request, with the banks `i`, `j` and the delay that the random source draws (DEDUCED, log 59). -/
def execPop (t : BitVec 3) (c : BitVec 6) (i j : BitVec 4) (delay : Nat) (s : State) : Host.Outcome State Fault Refusal :=
  let x := getCore s (.core t c)
  match x.reserved with
  | some n => if x.live ∨ entryGang s n = true then .next s else .next (popReserved s t c n)
  | none =>
    if x.live ∨ x.asked = true ∨ i = j then .next s
    else
      match popChoice s t c i.toNat j.toNat with
      | none =>
        if (getTower s t).ready.any (fun e => e.entry = s.pkg.cyc) then .next s
        else .next (modCore s (.core t c) (fun x => { x with asked := true }))
      | some e =>
        if slotsOpen s t e.num = false then .next (restoreFault s t e.num)
        else if (entryTasks s e.num).any (slotLost s t) then .next (dropLost s t e.num)
        else if entryGang s e.num then .next (reserveGang s t c e delay)
        else
          let d := match mapGet? s.tasks e.num.toNat with
            | some k => popTarget s t c k
            | none => c
          .next (placeTask (dropEntry s t e.num) t d e.num)

/-- GANG_BACKOFF_EXPIRY (R357): idle cores may ask again (DEDUCED, log 130). -/
def execGangBackoffExpiry (t : BitVec 3) (num : BitVec 32) (s : State) : Host.Outcome State Fault Refusal :=
  if (getTower s t).ready.any (fun e => decide (e.num = num) && e.backoff.any (fun b => decide (b.toNat ≤ s.pkg.cyc.toNat))) then
    .next (wakeIdle (modEntry s t num (fun e => { e with backoff := none })) t)
  else .next s

/-- DRAIN_CLAIM_COMMIT (R357): the claim of a cluster, every core of which is reserved for its gang. -/
def execDrainClaimCommit (t : BitVec 3) (cluster : BitVec 3) (s : State) : Host.Outcome State Fault Refusal :=
  let w := getTower s t
  match w.claims.find? (fun x => x.cluster = cluster.toNat) with
  | none => .next s
  | some x =>
    let codes := claimCodes s w x.lead
    let ctx := ((entryTasks s x.lead).map (fun k => k.ctx)).headD 0
    if codes.isEmpty ∨ budOpen s t ctx = false ∨ codes.any (fun k => decide ((getCore s (.core t k.2)).reserved ≠ some x.lead)) then .next s
    else if slotsOpen s t x.lead = false then
      .next (refreshClaims (modEntry (restoreFault s t x.lead) t x.lead (fun e => { e with fails := 0 })) t)
    else if (entryTasks s x.lead).any (slotLost s t) then .next (dropLost s t x.lead)
    else .next (refreshClaims (placeGang s t x.lead codes) t)

/-! ### TEND (R145, R260) -/

/-- TEND in the bundle that acts: the task ends with its bundle (R145, R260). -/
def sylTend (_f : SReg) (s : State) : Act :=
  match s.cur with
  | .core t c => .done (endPlaced s t c)
  | .sup _ => .done s

/-- TEND with its gate. -/
def execTend (h : Head) (f : SReg) (s : State) : Host.Outcome State Fault Refusal := runGated (.tend h f) (sylTend f) s

/-! ### The budget trap (R149) -/

/-- BUDGET_TRAP: at the boundary of a core whose task has run out, before the next group issues. -/
def execBudgetTrap (t : BitVec 3) (c : BitVec 6) (s : State) : Host.Outcome State Fault Refusal :=
  let x := getCore s (.core t c)
  if x.live ∧ !x.frozen ∧ x.task.group = 0 ∧ x.task.trapDue ≠ 0 ∧ x.task.drainTo = none then
    let f : FaultInfo := { mkFault .budget 0 0xFF x.task.trapDue.toNat with tile := none }
    .next (freeze (modTaskOf s (.core t c) (fun k => { k with trapDue := 0 })) t c f)
  else .next s

/-! ### Saving a task (R374 to R376) -/

/-- Does a frozen core hold a task stopped by the budget trap? -/
def budgetFrozen (x : CoreSt) : Bool := x.frozen && decide (bits x.fsyn.toNat 47 32 = 0x20)

/-- May the save of a core's task begin (R111, R327): every access performed, every untimed copy landed and every command
answered, a running macro between steps? (DEDUCED, log 64). -/
def saveReady (s : State) (a : Agent) : Bool :=
  let k := (getCore s a).task
  (myAcc s a k.num).isEmpty && !s.jobs.any (fun j => decide (j.num = k.num) && decide (j.who = a) && !j.waiting) &&
    !k.macros.any (fun m => (m.begun && decide (m.beat ≠ 0)) || m.fail.isSome) && !s.seals.any (fun p => decide (p.who = a))

/-- The control-store banks of a core that hold the generations of a task's macros (R327). -/
def banksOf (x : CoreSt) (k : Task) : List (BitVec 16 × FMap (BitVec 512)) :=
  ([(x.gen0, x.bank0), (x.gen1, x.bank1)]).filter (fun b => k.macros.any (fun m => decide (m.gen = b.1)))

/-- The saved image of a task: status, slot, epoch; pre-emption while frozen by the budget trap suspends it (R373). -/
def savedImage (s : State) (k : Task) (n : Nat) (frozen suspended budget : Bool) : Task :=
  { k with
    status := if suspended then .suspended else .ready
    trapDue := if budget then 3 else k.trapDue
    slot := some n, frozenSave := frozen, epoch := epochOf s k.ctx, snap := k.issued
    rings := if frozen then k.rings else Rings.empty }

/-- Ask for the pre-emption of the other placed members of a gang, which is saved and resumed as a whole (R39, R157)
(DEDUCED, log 97). -/
def preemptPeers (s : State) (k : Task) : State :=
  (k.gang.filter (fun n => n ≠ k.num)).foldl (fun s n =>
    match findPlaced s n with
    | some a => modCore s a (fun x => { x with preempt := true })
    | none => s) s

/-- A SUSPENDED task becomes READY once its TBUD and its context's BUD are both above zero (R373). -/
def resumeSuspended (s : State) (t : BitVec 3) (ctx : BitVec 12) : State :=
  s.tasks.foldl (fun (s : State) (k : Nat × Task) =>
    let x := k.2
    if x.home = t ∧ x.ctx = ctx ∧ x.status = .suspended ∧ budOpen s t ctx ∧ (!x.counted ∨ 0 < x.tbud.toInt) then
      let y := { x with status := .ready, trapDue := 0 }
      requeue { s with tasks := mapPut s.tasks k.1 y } y
    else s) s

/-- Save the task of a core and free the core; where no slot can be used, post SAVE_FAULT and abandon (R375). `frozen` says that
the task is saved with its snapshot by ACT suspend. Its image registrations end (R121), and the pages of its merged insertions are
freed where it is SUSPENDED (R129). -/
def saveTask (s : State) (t : BitVec 3) (c : BitVec 6) (frozen : Bool) : State :=
  let a := Agent.core t c
  let x := getCore s a
  let k := x.task
  let n := firstGap 0 (slotsHeld s t k.ctx)
  let fail := fun (va : Word) =>
    let s1 := modCore s a (fun y => { y with preempt := if frozen then y.preempt else false, suspend := false })
    requeueRest (postEvent s1 t 0x53 va (k.num.setWidth 64) 0 0xFF) k
  if 4096 ≤ n then fail 0
  else
    match slotPieces s t k.ctx n with
    | none => fail (slotVa t n)
    | some ps =>
      let k1 := { savedImage s k n frozen (budgetFrozen x && !frozen) (budgetFrozen x) with banks := banksOf x k }
      let s1 := (slotImage s k1 frozen).foldl (slotWrite ps) (if frozen then s else latchBuffer s t c k)
      let s2 := freeCore (preemptPeers (dropWalks s1 a) k) t c
      let s3 := { s2 with tasks := mapPut s2.tasks k.num.toNat k1, images := s2.images.filter (fun i => i.num ≠ k.num) }
      resumeSuspended (sweepMerged (requeue s3 k1)) t k.ctx

/-- PREEMPTION (R374): at a group end, or from the freeze of a budget trap, where a pre-emption is asked for. -/
def execPreemption (t : BitVec 3) (c : BitVec 6) (s : State) : Host.Outcome State Fault Refusal :=
  let a := Agent.core t c
  let x := getCore s a
  if x.live ∧ x.preempt ∧ !x.kill ∧ x.task.group = 0 ∧ x.task.trapDue = 0 ∧ (!x.frozen ∨ budgetFrozen x) ∧ saveReady s a ∧
      (getTower s t).ready.length < 16384 then
    .next (saveTask s t c false)
  else .next s


end Sys2Proof.Machine
end

