-- ==== Sys2Proof/Machine/Vbuf.lean ====
section
/-!
DEFINITION. Versioned buffers: descriptors, the four version operations, and the performance of a seal (spec
02_scratchpads.md R40 to R52, 15_task_sequence_system.md R347).
-/
namespace Sys2Proof.Machine

/-! ### Descriptors and slots (R40, R42, R43) -/

/-- A field of a descriptor. -/
def vbField (b : VBuf) (hi lo : Nat) : Nat := bits b.desc.toNat hi lo
/-- EN. -/
def vbOn (b : VBuf) : Bool := b.desc.getLsbD 63
/-- The number of slots. -/
def vbSlots (b : VBuf) : Nat := vbField b 62 60 + 1
/-- Granules of a slot. -/
def vbSize (b : VBuf) : Nat := vbField b 59 56 + 1
/-- The first granule. -/
def vbBase (b : VBuf) : Nat := vbField b 55 50
/-- CONSUME. -/
def vbConsume (b : VBuf) : Nat := vbField b 49 46
/-- CTX. -/
def vbCtx (b : VBuf) : BitVec 12 := BitVec.ofNat 12 (vbField b 43 32)

/-- A free slot. -/
def VSlot.empty : VSlot := ⟨.free, 0, 0, 0⟩

/-- Buffer `n` of a core. -/
def getVb (s : State) (a : Agent) (n : Nat) : VBuf := (getCore s a).vbd.getD n VBuf.off
/-- Change buffer `n` of a core. -/
def setVb (s : State) (a : Agent) (n : Nat) (b : VBuf) : State := modCore s a (fun c => { c with vbd := setAt c.vbd n b })

/-- The GS address of slot `n` of a buffer on a core. -/
def vbSlotAdr (t : BitVec 3) (c : BitVec 6) (b : VBuf) (n : Nat) : Nat := lsFlat t c ((vbBase b + n * vbSize b) * 0x4000)

/-- The buffer that a name names: a check core and a number (R44). -/
def findVb (s : State) (name : Word) : Option (BitVec 3 × BitVec 6 × Nat) :=
  let a := name.toNat
  if 2 ^ 32 ≤ a ∨ gsValid a = false ∨ bit a 28 = true ∨ bit a 27 = false then none
  else
    let t := BitVec.ofNat 3 (a / 2 ^ 29)
    let c := BitVec.ofNat 6 (bits a 27 22)
    ((List.range 8).find? (fun n =>
      let b := getVb s (.core t c) n
      vbOn b && decide (vbSlotAdr t c b 0 = a))).map (fun n => (t, c, n))

/-- The slot that satisfies a test, if any: the lowest. -/
def findSlot (b : VBuf) (f : VSlot → Bool) : Option Nat := (List.range (vbSlots b)).find? (fun n => f (b.slots.getD n VSlot.empty))

/-- Is some slot OPEN? -/
def vbOpen (b : VBuf) : Option Nat := findSlot b (fun x => decide (x.st = .opened))

/-- Is version `a` older than or equal to version `b` (R43)? -/
def notAfter (a b : BitVec 32) : Bool := decide ((a - b).toInt ≤ 0)

/-- The next version number; never 0 (R43). -/
def nextVersion (v : BitVec 32) : BitVec 32 := if v + 1 = 0 then 1 else v + 1

/-- How many versions back from NEWEST a version lies, 0 skipped. -/
def versionAge (newest v : BitVec 32) : Nat :=
  if v.toNat ≤ newest.toNat then newest.toNat - v.toNat else newest.toNat + (2 ^ 32 - 1) - v.toNat

/-- Is a version present? -/
def versionIn (b : VBuf) (v : BitVec 32) : Option Nat := findSlot b (fun x => decide (x.st ≠ .free) && decide (x.version = v))

/-- Is a version lost (R43)? -/
def versionLost (b : VBuf) (v : BitVec 32) : Bool :=
  notAfter v b.newest && decide (versionAge b.newest v < b.count) && (versionIn b v).isNone

/-- The SEALED slot with HOLD = 0 that holds the oldest version, if any. -/
def oldestSealed (b : VBuf) : Option Nat :=
  ((List.range (vbSlots b)).filter (fun n =>
    let x := b.slots.getD n VSlot.empty
    decide (x.st = .closed) && decide (x.hold = 0))).foldl (fun m n =>
      match m with
      | none => some n
      | some k =>
        if notAfter (b.slots.getD n VSlot.empty).version (b.slots.getD k VSlot.empty).version then some n else some k) none

/-- Candidate (R46). -/
def vbCandidate (b : VBuf) : Option Nat :=
  match findSlot b (fun x => decide (x.st = .free)) with
  | some n => some n
  | none => if vbConsume b = 0 then oldestSealed b else none

/-- Replace a slot. -/
def putSlot (b : VBuf) (n : Nat) (x : VSlot) : VBuf := { b with slots := setAt b.slots n x }

/-- Is a buffer being migrated, so that operations that arrive for it wait (R67)? -/
def vbMigrating (s : State) (t : BitVec 3) (c : BitVec 6) (n : Nat) : Bool :=
  (getTower s t).retires.any (fun r => r.moved && decide (r.spire.toNat = coreSpire c) && r.todo.contains n)

/-- Does an operation of the acting core stand behind a seal of its own on the buffer (R49)? -/
def ownSeal (s : State) (home : Agent) (n : Nat) : Bool :=
  s.seals.any (fun p => decide (p.who = s.cur) && decide (p.core = home) && decide (p.buf = n))

/-- What the acting task's wait at a buffer of a name has come to, if it has one of that kind there. -/
def verWaitOf (s : State) (name : Word) (hold : Bool) : Option VerEnd :=
  (((curTask s).verWait.filter (fun w => decide (w.name = name) && decide (w.hold = hold)))).map VerWait.res

/-- The home of a name for the acting task: the buffer, or RIGHTS, or, while the buffer is being migrated or the way
to it is held, what `held` says (R44, R65, R67). -/
def atHome (s : State) (name : Word) (held : Agent → Nat → Act) (f : Agent → BitVec 3 → BitVec 6 → Nat → VBuf → Act) : Act :=
  match findVb s name with
  | none => .trap (mkFault .rights name 11)
  | some (t, c, n) =>
    let b := getVb s (.core t c) n
    if vbCtx b ≠ (curTask s).ctx then .trap (mkFault .rights name 11)
    else if vbMigrating s t c n ∨ laneHeld s s.cur name.toNat then held (.core t c) n
    else f (.core t c) t c n b

/-- The wait is over. -/
def endVerWait (s : State) : State := modTask s (fun t => { t with verWait := none })

/-- A version result (R44). -/
def versionResult (v : BitVec 32) (adr : Nat) : Word := word (v.toNat * 2 ^ 32 + adr)

/-- A slot opened for the next version: the buffer afterwards, and the version result (R46). -/
def openAt (t : BitVec 3) (c : BitVec 6) (b : VBuf) (k : Nat) : VBuf × Word :=
  let v := nextVersion b.newest
  (putSlot b k ⟨.opened, v, 0, 0⟩, versionResult v (vbSlotAdr t c b k))

/-- The SEALED slot of a version with a hold to spare, if there is one (R46). -/
def holdSlot (b : VBuf) (v : BitVec 32) : Option Nat :=
  findSlot b (fun y => decide (y.st = .closed) && decide (y.version = v) && decide (y.hold ≠ 15))

/-- A slot held once more: the buffer afterwards, and the version result (R46). -/
def holdAt (t : BitVec 3) (c : BitVec 6) (b : VBuf) (v : BitVec 32) (k : Nat) : VBuf × Word :=
  let y := b.slots.getD k VSlot.empty
  (putSlot b k { y with hold := y.hold + 1 }, versionResult v (vbSlotAdr t c b k))

/-! ### Operations that wait at their home (R45, R46, R49, R50) -/

/-- A wait at a buffer has ended: its task, wherever it is, takes the result or the fault when it issues its bundle again. A task
that has ended takes nothing (R50). -/
def answerWait (s : State) (w : VWait) (r : VerEnd) : State :=
  let f := fun (k : Task) => { k with verWait := k.verWait.map (fun x => { x with res := r }) }
  if isSup w.who then modTaskOf s w.who f else modTaskNum s w.num f

/-- Must a waiting operation stand behind a seal of its own core that has not performed (R49)? -/
def behindSeal (s : State) (home : Agent) (n : Nat) (w : VWait) : Bool :=
  s.seals.any (fun p => decide (p.who = w.who) && decide (p.core = home) && decide (p.buf = n))

/-- One waiting VHOLD against the buffer as it stands: it is answered, or it stays, for the version that it is now for. -/
def serveHold (t : BitVec 3) (c : BitVec 6) (n : Nat) (s : State) (w : VWait) : State :=
  let home := Agent.core t c
  let b := getVb s home n
  let keep := fun (v : BitVec 32) => setVb s home n { b with waits := b.waits ++ [{ w with v := v }] }
  let v := if w.v = 0 then b.newest else w.v
  if w.hold = false ∨ behindSeal s home n w = true ∨ v = 0 then keep w.v
  else if versionLost b v then answerWait s w (.failed .versionLost)
  else
    match holdSlot b v with
    | none => keep v
    | some k =>
      let r := holdAt t c b v k
      answerWait (setVb s home n r.1) w (.granted r.2)

/-- One waiting VOPEN: it takes a candidate, or faults at a slot that another has opened, or stays. -/
def serveOpen (t : BitVec 3) (c : BitVec 6) (n : Nat) (s : State) (w : VWait) : State :=
  let home := Agent.core t c
  let b := getVb s home n
  let keep := setVb s home n { b with waits := b.waits ++ [w] }
  if w.hold = true ∨ behindSeal s home n w = true then keep
  else if (vbOpen b).isSome then answerWait s w (.failed .illegalOperand)
  else
    match vbCandidate b with
    | none => keep
    | some k =>
      let r := openAt t c b k
      answerWait (setVb s home n r.1) w (.granted r.2)

/-- One pass over the waits of a buffer, in the order in which they arrived. -/
def servePass (f : State → VWait → State) (home : Agent) (n : Nat) (s : State) : State :=
  let b := getVb s home n
  b.waits.foldl f (setVb s home n { b with waits := [] })

/-- The home takes up the holds that wait at a buffer. While the buffer is being migrated they wait on (R67). -/
def serveHolds (s : State) (t : BitVec 3) (c : BitVec 6) (n : Nat) : State :=
  if (getVb s (.core t c) n).waits.isEmpty ∨ vbMigrating s t c n = true then s else servePass (serveHold t c n) (.core t c) n s

/-- The home takes up all that waits at a buffer: holds, then opens, then the holds that an open has made lose their version
(R46, R49). -/
def serveWaits (s : State) (t : BitVec 3) (c : BitVec 6) (n : Nat) : State :=
  let home := Agent.core t c
  if (getVb s home n).waits.isEmpty ∨ vbMigrating s t c n = true then s
  else servePass (serveHold t c n) home n (servePass (serveOpen t c n) home n (servePass (serveHold t c n) home n s))

/-- Every home takes up what waits at its buffers: the last thing in a cycle, after its seals, releases, holds and opens (R49;
DEDUCED, log 123). -/
def serveAll (s : State) : State :=
  s.cores.foldl (fun s x =>
    match keyAgent x.1 with
    | .core t c => (List.range 8).foldl (fun s n => serveWaits s t c n) s
    | .sup _ => s) s

/-- End every wait on a buffer with a fault (R41, R67). -/
def failWaiters (s : State) (home : Agent) (n : Nat) (code : FCode) : State :=
  let b := getVb s home n
  b.waits.foldl (fun s w => answerWait s w (.failed code)) (setVb s home n { b with waits := [] })

/-- What a syllable does whose operation has been taken up at its home before: it stalls, or takes its result or its fault; `fresh`
is what it does the first time. -/
def orWaiting (s : State) (name : Word) (hold : Bool) (d : Nat) (fresh : Act) : Act :=
  match verWaitOf s name hold with
  | none => fresh
  | some .waiting => .stall
  | some (.granted x) => .done (pushScalar (endVerWait s) 1 11 d x)
  | some (.failed c) => .trap (if c = .illegalOperand then bundleFault s c 11 else mkFault c name 11)

/-- VOPEN (R46), behind the operations that wait at the home already (R49). -/
def sylVopen (f : SysF) (s : State) : Act :=
  let name := scalarIn (curTask s) f.a
  let wait := fun (home : Agent) (n : Nat) => Act.wait (.version name home n false 0)
  orWaiting s name false f.d.toNat
    (atHome s name wait (fun home t c n _ =>
      let s1 := serveWaits s t c n
      let b := getVb s1 home n
      if ownSeal s home n then wait home n
      else if (vbOpen b).isSome then .trap (bundleFault s .illegalOperand 11)
      else
        match vbCandidate b with
        | none => wait home n
        | some k =>
          let r := openAt t c b k
          .done (pushScalar (endVerWait (setVb s1 home n r.1)) 1 11 f.d.toNat r.2)))

/-- VOPEN with its gate. -/
def execVopen (h : Head) (f : SysF) (s : State) : Host.Outcome State Fault Refusal := runGated (.vopen h f) (sylVopen f) s

/-- VSEAL (R46, R48): the seal waits for the stores, atomics, copies, transfers and commands the core issued before it
(DEDUCED, log 95). -/
def sylVseal (f : SysF) (s : State) : Act :=
  atHome s (scalarIn (curTask s) f.a) (fun _ _ => .stall) (fun home _ _ n b =>
    if (vbOpen b).isNone then .trap (bundleFault s .illegalOperand 11)
    else
      let p : Pending :=
        { id := s.nextId, who := s.cur, core := home, buf := n, rel := none
          after := (s.acc.filter (fun x => decide (x.who = s.cur) && opStores x.op)).map (fun x => x.id)
          jobs := (s.jobs.filter (fun j => decide (j.who = s.cur) && !j.waiting)).map (fun j => j.id) }
      .done { s with seals := s.seals ++ [p], nextId := s.nextId + 1 })

/-- VSEAL with its gate. -/
def execVseal (h : Head) (f : SysF) (s : State) : Host.Outcome State Fault Refusal := runGated (.vseal h f) (sylVseal f) s

/-- A seal performs (R46): the version that is open then becomes SEALED and NEWEST. A second seal that was accepted of the same open
version finds it sealed: it seals the version that is open when it performs itself, or nothing (DESIGN CHOICE, log 113). -/
def sealNow (b : VBuf) : VBuf :=
  match vbOpen b with
  | none => b
  | some n =>
    let x := b.slots.getD n VSlot.empty
    { putSlot b n { x with st := .closed } with newest := x.version, count := b.count + 1 }

/-- Are two operations of one core, on one buffer? -/
def sameQueue (p q : Pending) : Bool := decide (p.who = q.who) && decide (p.core = q.core) && decide (p.buf = q.buf)

/-- Has everything a seal waits for been performed, and every earlier seal of its core on the buffer (R46, R49)? -/
def sealFree (s : State) (p : Pending) : Bool :=
  !s.acc.any (fun x => p.after.contains x.id) && !s.jobs.any (fun j => p.jobs.contains j.id && !jobDone j) &&
    !s.seals.any (fun q => sameQueue p q && decide (q.id < p.id))

/-- A slot after one release (R46). -/
def releaseSlot (b : VBuf) (x : VSlot) : VSlot :=
  let h := x.hold - 1
  let r := if x.rel = 15 then 15 else x.rel + 1
  if vbConsume b ≠ 0 ∧ vbConsume b ≤ r.toNat ∧ h = 0 then VSlot.empty else { x with hold := h, rel := r }

/-- The SEALED slot of a version with more than `n` holds, if there is one. -/
def heldSlot (b : VBuf) (v : BitVec 32) (n : Nat) : Option Nat :=
  findSlot b (fun y => decide (y.st = .closed) && decide (y.version = v) && decide (n < y.hold.toNat))

/-- A buffer after one release of a version; one that no hold is left of changes nothing. -/
def releaseIn (b : VBuf) (v : BitVec 32) : VBuf :=
  match heldSlot b v 0 with
  | none => b
  | some k => putSlot b k (releaseSlot b (b.slots.getD k VSlot.empty))

/-- The releases that stand right behind a seal of their core on its buffer (R49). -/
def relsBehind (s : State) (p : Pending) : List Pending :=
  (s.seals.filter (fun q => sameQueue p q && decide (p.id < q.id))).takeWhile (fun q => q.rel.isSome)

/-- VSEAL_PERFORM (R46, R48): the seal, and behind it the releases that its core issued after it (R49). -/
def execVsealPerform (id : Nat) (s : State) : Host.Outcome State Fault Refusal :=
  match s.seals.find? (fun p => p.id = id) with
  | none => .next s
  | some p =>
    if sealFree s p = false ∨ p.rel.isSome = true then .next s
    else
      let rs := relsBehind s p
      let s1 := { s with seals := s.seals.filter (fun q => decide (q.id ≠ id) && !rs.any (fun r => decide (r.id = q.id))) }
      .next (setVb s1 p.core p.buf ((rs.filterMap Pending.rel).foldl releaseIn (sealNow (getVb s1 p.core p.buf))))

/-- VHOLD (R46), behind the holds that wait at the home already (R49). -/
def sylVhold (f : SysF) (s : State) : Act :=
  let name := scalarIn (curTask s) f.a
  let x := scalarIn (curTask s) f.b
  if 2 ^ 32 ≤ x.toNat then .trap (bundleFault s .illegalOperand 11)
  else
    let wait := fun (home : Agent) (n : Nat) => Act.wait (.version name home n true (x.setWidth 32))
    orWaiting s name true f.d.toNat
      (atHome s name wait (fun home t c n _ =>
        let s1 := serveHolds s t c n
        let b := getVb s1 home n
        let v := if x.setWidth 32 = 0#32 then b.newest else x.setWidth 32
        if ownSeal s home n then wait home n
        else if v = 0 then .wait (.version name home n true 0)
        else if versionLost b v then .trap (mkFault .versionLost name 11)
        else
          match holdSlot b v with
          | none => .wait (.version name home n true v)
          | some k =>
            let r := holdAt t c b v k
            .done (pushScalar (endVerWait (setVb s1 home n r.1)) 1 11 f.d.toNat r.2)))

/-- VHOLD with its gate. -/
def execVhold (h : Head) (f : SysF) (s : State) : Host.Outcome State Fault Refusal := runGated (.vhold h f) (sylVhold f) s

/-- The releases of a version that the acting core has had accepted and that stand behind a seal of its own. -/
def ownRels (s : State) (home : Agent) (n : Nat) (v : BitVec 32) : Nat :=
  (s.seals.filter (fun p => decide (p.who = s.cur) && decide (p.core = home) && decide (p.buf = n) && decide (p.rel = some v))).length

/-- VREL (R46): checked and accepted at once (R45). Behind a seal of its own core it takes effect after that seal (R49; DEDUCED,
log 123). -/
def sylVrel (f : SysF) (s : State) : Act :=
  let name := scalarIn (curTask s) f.a
  let x := scalarIn (curTask s) f.b
  if x = 0 ∨ 2 ^ 32 ≤ x.toNat then .trap (bundleFault s .illegalOperand 11)
  else
    atHome s name (fun _ _ => .stall) (fun home _ _ n b =>
      let v : BitVec 32 := x.setWidth 32
      if versionLost b v then .trap (mkFault .versionLost name 11)
      else
        match heldSlot b v (ownRels s home n v) with
        | none => .trap (bundleFault s .illegalOperand 11)
        | some k =>
          if ownSeal s home n then
            .done { s with seals := s.seals ++ [⟨s.nextId, s.cur, home, n, [], [], some v⟩], nextId := s.nextId + 1 }
          else .done (setVb s home n (putSlot b k (releaseSlot b (b.slots.getD k VSlot.empty)))))

/-- VREL with its gate. -/
def execVrel (h : Head) (f : SysF) (s : State) : Host.Outcome State Fault Refusal := runGated (.vrel h f) (sylVrel f) s

/-! ### Descriptor writes and the state register (R41, R42) -/

/-- The granules of a descriptor: first and number. -/
def vbGranules (b : VBuf) : Nat × Nat := (vbBase b, vbSlots b * vbSize b)

/-- Is an enabling value rejected (R41)? -/
def vbRejected (s : State) (a : Agent) (n : Nat) (b : VBuf) : Bool :=
  decide (vbSlots b = 1) || decide (64 < (vbGranules b).1 + (vbGranules b).2) || decide (vbField b 45 44 ≠ 0) || decide (vbField b 31 0 ≠ 0) ||
    (List.range 8).any (fun m =>
      let o := getVb s a m
      decide (m ≠ n) && vbOn o && rangesMeet (vbGranules o) (vbGranules b))

/-- The name of a buffer. -/
def vbName (t : BitVec 3) (c : BitVec 6) (b : VBuf) : Word := word (vbSlotAdr t c b 0)

/-- Disable a buffer: its slots are free, its counters 0, its waiters fail (R41), and its pending seals and releases are dropped
(DEDUCED, log 129). -/
def disableVb (s : State) (t : BitVec 3) (c : BitVec 6) (n : Nat) (desc : Word) : State :=
  let s1 := failWaiters s (.core t c) n .versionLost
  setVb { s1 with seals := s1.seals.filter (fun p => !(decide (p.core = .core t c) && decide (p.buf = n))) } (.core t c) n
    ⟨desc, [], 0, 0, []⟩

/-- Enable a buffer: every slot free, NEWEST 0; a slot with bytes last owned by another context is zeroed whole (R25, R41, R52). -/
def enableVb (s : State) (t : BitVec 3) (c : BitVec 6) (n : Nat) (b : VBuf) : State :=
  let s1 := (List.range (vbSlots b)).foldl (fun s g => allocZero s (vbSlotAdr t c b g) (vbSize b * 0x4000) false (vbCtx b)) s
  setVb s1 (.core t c) n { b with slots := List.replicate (vbSlots b) VSlot.empty, newest := 0, count := 0 }

/-- A write of VBDn of a core (R41); reserved bits of a disabled value are ignored (R7). A buffer is not enabled before the
accesses of its slots' old owner have been performed (R28). -/
def writeVbd (s : State) (t : BitVec 3) (c : BitVec 6) (n : Nat) (v : Word) : RegAct :=
  let old := getVb s (.core t c) n
  let new : VBuf := ⟨v, [], 0, 0, []⟩
  if coreLayer c = 0 then .illegal
  else if vbOn new then
    if vbRejected s (.core t c) n new ∨ (vbOn old = true ∧ old.desc ≠ v) then .illegal
    else if vbOn old then .done s
    else if (List.range (vbSlots new)).any (fun g => allocHeld s (vbSlotAdr t c new g) (vbSize new * 0x4000) (vbCtx new)) then .stall
    else .done (enableVb s t c n new)
  else
    let kept := v &&& 0x7FFF_CFFF_0000_0000#64
    if vbOn old then .done (disableVb s t c n kept) else .done (setVb s (.core t c) n ⟨kept, [], 0, 0, []⟩)

/-- VBD_ENABLE: the write with EN = 1. -/
def execVbdEnable (t : BitVec 3) (c : BitVec 6) (n : BitVec 3) (v : BitVec 64) (s : State) : Host.Outcome State Fault Refusal :=
  if v.getLsbD 63 then (writeVbd s t c n.toNat v).orElse s else .next s

/-- VBD_DISABLE: the write with EN = 0. -/
def execVbdDisable (t : BitVec 3) (c : BitVec 6) (n : BitVec 3) (v : BitVec 64) (s : State) : Host.Outcome State Fault Refusal :=
  if v.getLsbD 63 then .next s else (writeVbd s t c n.toNat v).orElse s

/-- The code of a slot's state in VBS. -/
def slotCode (x : VSlot) : Nat :=
  match x.st with
  | .free => 0
  | .opened => 1
  | .closed => 2

/-- VBSn (R42). -/
def vbsWord (b : VBuf) : Word :=
  let o := match vbOpen b with
    | some n => 2 ^ 31 + n * 2 ^ 28
    | none => 0
  word (b.newest.toNat * 2 ^ 32 + o + ((List.range (vbSlots b)).map (fun n => slotCode (b.slots.getD n VSlot.empty) * 4 ^ n)).foldl (· + ·) 0)

end Sys2Proof.Machine
end

