-- ==== Sys2Proof/Machine/Spires.lean ====
section
/-!
DEFINITION. Retirement of spires, migration of versioned buffers, and background zeroing (spec 03_tower_memory.md R64 to R67,
17_traps_preemption.md R371, 01_address_spaces.md R27).
-/
namespace Sys2Proof.Machine

/-! ### The state of the spires (R64) -/

/-- Is a spire replaced by a spare? -/
def spireSpared (w : TowerSt) (n : Nat) : Bool := (List.range 4).any (fun i => decide (bits w.spSub.toNat (8 * i + 7) (8 * i) = 128 + n))

/-- Is a spire retired already: spared, rerouted, or under retirement? -/
def spireRetired (w : TowerSt) (n : Nat) : Bool :=
  w.rerouted.getLsbD n || spireSpared w n || w.retires.any (fun r => decide (r.spire.toNat = n))

/-- The spires that may carry another: those of its cluster that are not rerouted (R65). -/
def carriersOf (w : TowerSt) (n : Nat) : List Nat := [n ^^^ 1, n ^^^ 2, n ^^^ 3].filter (fun k => !w.rerouted.getLsbD k)

/-- Begin a retirement: step 1 of R65 holds the spire's traffic. -/
def beginRetire (s : State) (t : BitVec 3) (n : BitVec 5) (action : RetireAction) : State :=
  modTower s t (fun w => { w with retires := w.retires ++ [⟨n, action, false, 0, [], none, []⟩] })

/-- An automatic trigger: retirement in hardware mode, an event in assisted mode (R65) (DEDUCED, log 73); a tower held in reset does
nothing (R394). -/
def autoRetire (s : State) (t : BitVec 3) (n : BitVec 5) : State :=
  let w := getTower s t
  if w.inReset ∨ w.rerouted.getLsbD n.toNat ∨ w.retires.any (fun r => decide (r.spire = n)) then s
  else if w.fmr.getLsbD 7 then postEvent s t 0x4B (n.setWidth 64) 0 0 0xFF
  else beginRetire s t n .decide

/-- SPIRE_ERROR_THRESHOLD (R65): the lane errors corrected on a spire within one interval of 1 ms. -/
def execSpireErrorThreshold (t : BitVec 3) (spire : BitVec 5) (errors : BitVec 16) (s : State) : Host.Outcome State Fault Refusal :=
  let limit := bits (getTower s t).spThr.toNat 15 0
  .next (if limit ≠ 0 ∧ limit ≤ errors.toNat then autoRetire s t spire else s)

/-- SPIRE_LANE_FAIL (R65): a trigger of its own, whatever THRESH is (DEDUCED, log 132). -/
def execSpireLaneFail (t : BitVec 3) (spire : BitVec 5) (s : State) : Host.Outcome State Fault Refusal := .next (autoRetire s t spire)

/-- A write of SPRQ (R64). -/
def writeSprq (s : State) (t : BitVec 3) (v : Word) : RegAct :=
  let x := v.toNat
  let w := getTower s t
  let n := bits x 4 0
  let action := bits x 62 61
  if action = 3 ∨ bits x 60 58 ≠ 0 ∨ bits x 55 13 ≠ 0 ∨ bits x 7 5 ≠ 0 then .illegal
  else if spireRetired w n ∨ (action = 1 ∧ w.spFree.getLsbD (bits x 57 56) = false) ∨
      (action = 2 ∧ (carriersOf w n).contains (bits x 12 8) = false) then .illegal
  else if bit x 63 = false then .done s
  else
    .done (beginRetire s t (BitVec.ofNat 5 n)
      (if action = 0 then .decide else if action = 1 then .spare (BitVec.ofNat 2 (bits x 57 56)) else .reroute (BitVec.ofNat 5 (bits x 12 8))))

/-- SPRQ_DECIDE: the write with ACTION 0. -/
def execSprqDecide (t : BitVec 3) (v : BitVec 64) (s : State) : Host.Outcome State Fault Refusal :=
  if bits v.toNat 62 61 = 0 then (writeSprq s t v).orElse s else .next s

/-- SPRQ_SPARE: the write with ACTION 1. -/
def execSprqSpare (t : BitVec 3) (v : BitVec 64) (s : State) : Host.Outcome State Fault Refusal :=
  if bits v.toNat 62 61 = 1 then (writeSprq s t v).orElse s else .next s

/-- SPRQ_REROUTE: the write with ACTION 2. -/
def execSprqReroute (t : BitVec 3) (v : BitVec 64) (s : State) : Host.Outcome State Fault Refusal :=
  if bits v.toNat 62 61 = 2 then (writeSprq s t v).orElse s else .next s

/-! ### Steps 2 and 3 (R65, R66) -/

/-- The spare that a retirement takes, if any: the named one, or the lowest free one where the device decides. -/
def spareFor (w : TowerSt) (a : RetireAction) : Option Nat :=
  let lowest := (List.range 4).find? (fun i => w.spFree.getLsbD i)
  match a with
  | .decide => lowest
  | .spare n => if w.spFree.getLsbD n.toNat then some n.toNat else lowest
  | .reroute _ => none

/-- Step 2a: the spare takes over the lanes. -/
def takeSpare (s : State) (t : BitVec 3) (n : BitVec 5) (k : Nat) : State :=
  let s1 := modTower s t (fun w =>
    { w with
      spFree := w.spFree &&& ~~~(1#4 <<< k)
      spSub := BitVec.ofNat 32 (setBits w.spSub.toNat (8 * k + 7) (8 * k) (128 + n.toNat))
      retires := w.retires.filter (fun r => r.spire ≠ n) })
  postEvent s1 t 0x4C (word (n.toNat + k * 256)) 0 0 0xFF

/-- The carrier that a retirement takes, if one is left. -/
def carrierFor (w : TowerSt) (n : Nat) (a : RetireAction) : Option Nat :=
  match a with
  | .reroute k => if (carriersOf w n).contains k.toNat then some k.toNat else (carriersOf w n).head?
  | _ => (carriersOf w n).head?

/-- Step 2b: the channel, with what it carried, goes to a carrier; where none is left it is unreachable (DEDUCED, log 42). -/
def reroute (s : State) (t : BitVec 3) (n : BitVec 5) (a : RetireAction) : State :=
  let w := getTower s t
  let carried := n.toNat :: (w.carriers.filter (fun c => c.2 = n.toNat)).map (fun (c : Nat × Nat) => c.1)
  let w1 := { w with rerouted := w.rerouted ||| (1#32 <<< n.toNat) }
  match carrierFor w1 n.toNat a with
  | some k =>
    setTower s t { w1 with
      carriers := carried.foldl (fun (m : FMap Nat) c => mapPut m c k) w1.carriers
      retires := w1.retires.map (fun r => if r.spire = n then { r with carrier := BitVec.ofNat 5 k } else r) }
  | none =>
    postEvent (setTower s t { w1 with
      lostSpires := carried.foldl (fun (m : BitVec 32) c => m ||| (1#32 <<< c)) w1.lostSpires
      carriers := carried.foldl (fun (m : FMap Nat) c => mapDel m c) w1.carriers }) t 0x4E (n.setWidth 64) 0 0 0xFF

/-- Change a core's CFM: a task that needs a bit now clear is pre-empted at its next group end (R151), and with it every member of
its gang, each at its own (R39, R157). -/
def putCfm (s : State) (t : BitVec 3) (c : BitVec 6) (v : Word) : State :=
  let x := getCore s (.core t c)
  let need := descFeat x.task.desc.toNat
  let lacks := x.live && decide (need &&& v.toNat ≠ need)
  let s1 := modCore s (.core t c) (fun x => { x with cfm := v, preempt := x.preempt || lacks })
  let s2 := if lacks then preemptPeers s1 x.task else s1
  refreshClaims (wakeIdle s2 t) t

/-- The check core of a spire's column, and its draft core. -/
def columnCore (n : Nat) (layer : Nat) : BitVec 6 := coreCode layer (n / 4) (n % 4)

/-- Step 3: the full-spire bit of both cores goes. -/
def clearFspire (s : State) (t : BitVec 3) (n : Nat) : State :=
  let one := fun (s : State) (layer : Nat) =>
    putCfm s t (columnCore n layer) ((getCore s (.core t (columnCore n layer))).cfm &&& ~~~(1#64 <<< 8))
  one (one s 0) 1

/-- The enabled buffers of a check core in the order of their names (R371). -/
def buffersOn (s : State) (t : BitVec 3) (c : BitVec 6) : List Nat :=
  let on := (List.range 8).filter (fun i => vbOn (getVb s (.core t c) i))
  (List.range 64).flatMap (fun g => on.filter (fun i => decide (vbBase (getVb s (.core t c) i) = g)))

/-- Steps 2 and 3 of a retirement under way, and the list of buffers for step 4 (R65). -/
def retireStep (s : State) (t : BitVec 3) (spire : BitVec 5) : State :=
  let w := getTower s t
  match w.retires.find? (fun r => r.spire = spire && !r.moved) with
  | none => s
  | some r =>
    match spareFor w r.action with
    | some k => takeSpare s t spire k
    | none =>
      let s1 := clearFspire (reroute s t spire r.action) t spire.toNat
      let todo := buffersOn s1 t (columnCore spire.toNat 1)
      (modTower s1 t (fun w =>
        { w with retires := w.retires.map (fun x => if x.spire = spire then { x with moved := true, todo := todo } else x) }))

/-- SPIRE_RETIREMENT (R65). -/
def execSpireRetirement (t : BitVec 3) (spire : BitVec 5) (s : State) : Host.Outcome State Fault Refusal := .next (retireStep s t spire)

/-! ### Migration of a buffer (R67) -/

/-- The object tables of the package: their flat addresses, each once (R79). -/
def objectTables (s : State) : List Nat :=
  (s.towers.flatMap (fun w => w.2.otroot.filterMap (fun r =>
    let x := r.2.toNat
    if bit x 63 then some (tmFlat (bits x 62 60) (bits x 35 21 * 2 ^ 21)) else none))).foldl (fun l a => insertNat a l) []

/-- The valid entries of a table, by flat address: only a listed cell can hold VALID = 1. -/
def validEntries (s : State) (a : Nat) : List Nat :=
  s.mem.filterMap (fun c => if a ≤ c.1 ∧ c.1 < a + 2 ^ 21 ∧ (c.1 - a) % 32 = 2 ∧ c.2.getLsbD 3 then some (c.1 - 2) else none)

/-- Does an entry's range overlap the GS range `[lo, lo + n)` of a scratchpad: a GS range, or an LS range, which is one of every
scratchpad (R67; DEDUCED, log 43)? -/
def entryOverlaps (s : State) (lo n a : Nat) : Bool :=
  let b : Rec := ⟨BitVec.ofNat 256 (readNat s a 32), true, false⟩
  let from' := if b.space = 0 then lo % 2 ^ 22 else lo
  decide (b.space < 2) && decide (b.base < from' + n) && decide (from' < b.base + b.extent)

/-- Step 1: every entry over the range gets a new generation, which revokes the records loaded from it. -/
def bumpEntries (s : State) (lo n : Nat) : State :=
  ((objectTables s).flatMap (validEntries s)).foldl (fun s a =>
    if entryOverlaps s lo n a then
      let e := readNat s a 32
      putEntry s a (BitVec.ofNat 12 (bits e 31 20)) (BitVec.ofNat 16 (bits e 47 32)) e
    else s) s

/-- Is an access issued before a stamp still to be performed in a range? -/
def rangeBusy (s : State) (stamp lo n : Nat) : Bool := (usersOf s lo n).any (fun i => decide (i < stamp))

/-- Is a granule of a scratchpad free: inside no enabled descriptor and allocated to no context but 0 (R67; DEDUCED, log 44)? -/
def granuleFree (s : State) (t : BitVec 3) (c : BitVec 6) (g : Nat) : Bool :=
  s.owner.all (fun o => decide (o.ctx = 0) || !rangesMeet (o.base, o.len) (lsFlat t c (g * 0x4000), 0x4000)) &&
    (List.range 8).all (fun i =>
      let b := getVb s (.core t c) i
      !vbOn b || decide (g < vbBase b) || decide (vbBase b + vbSlots b * vbSize b ≤ g))

/-- The lowest run of `n` free granules of a core. -/
def granuleRun (s : State) (t : BitVec 3) (c : BitVec 6) (n : Nat) : Option Nat :=
  (List.range (65 - n)).find? (fun g => (List.range n).all (fun i => granuleFree s t c (g + i)))

/-- The check cores in the order of the search: the same cluster, then every cluster. -/
def searchOrder (cluster : Nat) : List (BitVec 6) :=
  (cluster :: List.range 8).flatMap (fun cl => (List.range 4).map (fun col => coreCode 1 cl col))

/-- The target of a buffer of `n` granules: core, descriptor and first granule (step 3). The rule does not say which of several
disabled descriptors of the core, or which run of granules, it takes: the lowest (DESIGN CHOICE, log 121). -/
def findTarget (s : State) (t : BitVec 3) (cluster n : Nat) : Option (BitVec 6 × Nat × Nat) :=
  (searchOrder cluster).findSome? (fun c =>
    if (getTower s t).rerouted.getLsbD (coreSpire c) then none
    else
      match (List.range 8).find? (fun i => !vbOn (getVb s (.core t c) i)), granuleRun s t c n with
      | some i, some g => some (c, i, g)
      | _, _ => none)

/-- Is one version older than another (R43)? -/
def older (x y : VSlot) : Bool := notAfter x.version y.version

/-- The oldest of some slots, by place. -/
def oldestSlot (l : List (Nat × VSlot)) : Option (Nat × VSlot) :=
  l.foldl (fun m x =>
    match m with
    | none => some x
    | some y => if older x.2 y.2 then some x else some y) none

/-- Shrink by one slot (step 4): a FREE one, else the oldest SEALED one with HOLD 0; nothing where only two are left. Of several
FREE slots the lowest goes, which the rule does not say (DESIGN CHOICE, log 121). -/
def shrinkSlots (l : List (Nat × VSlot)) : Option (List (Nat × VSlot)) :=
  if l.length ≤ 2 then none
  else
    match l.find? (fun x => x.2.st = .free) with
    | some x => some (l.filter (fun y => y.1 ≠ x.1))
    | none => (oldestSlot (l.filter (fun x => x.2.st = .closed ∧ x.2.hold = 0))).map (fun x => l.filter (fun y => y.1 ≠ x.1))

/-- Search and shrink until a target exists: the surviving slots and the target (steps 3 and 4). -/
def searchTarget (s : State) (t : BitVec 3) (cluster size : Nat) : Nat → List (Nat × VSlot) → Option (List (Nat × VSlot) × BitVec 6 × Nat × Nat)
  | 0, _ => none
  | fuel + 1, l =>
    match findTarget s t cluster (l.length * size) with
    | some r => some (l, r)
    | none =>
      match shrinkSlots l with
      | some m => searchTarget s t cluster size fuel m
      | none => none

/-- Insert a version number in ascending order. -/
def insertVersion (v : BitVec 32) : List (BitVec 32) → List (BitVec 32)
  | [] => [v]
  | x :: l => if v.toNat < x.toNat then v :: x :: l else x :: insertVersion v l

/-- The versions that some slots hold, in ascending order. -/
def versionsOf (l : List (Nat × VSlot)) : List (BitVec 32) :=
  (l.filter (fun x => x.2.st ≠ .free)).foldl (fun m x => insertVersion x.2.version m) []

/-- Steps 5 and 6: bytes, descriptor and slots move; the old descriptor is cleared to 0, its granules pass to context 0, and what
waits at the old home faults RIGHTS. A seal accepted at the old home goes with the buffer (DEDUCED, log 71). -/
def moveBuffer (s : State) (t : BitVec 3) (c : BitVec 6) (i : Nat) (l : List (Nat × VSlot)) (c' : BitVec 6) (i' g : Nat) : State :=
  let b := getVb s (.core t c) i
  let desc := BitVec.ofNat 64 (setBits (setBits b.desc.toNat 62 60 (l.length - 1)) 55 50 g)
  let new : VBuf := { b with desc := desc, slots := l.map (fun x => x.2), waits := [] }
  let s1 := (List.range l.length).foldl (fun s k => allocZero s (vbSlotAdr t c' new k) (vbSize b * 0x4000) false (vbCtx b)) s
  let s2 := (List.range l.length).foldl (fun s k =>
    let x := l.getD k (0, VSlot.empty)
    if x.2.st = .free then s else copyRaw s (vbSlotAdr t c b x.1) (vbSlotAdr t c' new k) (vbSize b * 0x4000)) s1
  let s3 := setVb (setVb (failWaiters s2 (.core t c) i .rights) (.core t c) i VBuf.off) (.core t c') i' new
  let s4 := { s3 with
    seals := s3.seals.map (fun p => if p.core = .core t c ∧ p.buf = i then { p with core := .core t c', buf := i' } else p) }
  giveTo s4 (vbSlotAdr t c b 0) (vbSlots b * vbSize b * 0x4000) 0

/-- Migrate or disable the buffer in hand; what the event reports of it (R67, R371). A buffer that is disabled leaves its descriptor
0, where the rule says only that it is disabled (DESIGN CHOICE, log 121). -/
def migrateBuffer (s : State) (t : BitVec 3) (c : BitVec 6) (i : Nat) : State × (BitVec 32 × BitVec 32 × List (BitVec 32)) :=
  let b := getVb s (.core t c) i
  let old := (vbName t c b).setWidth 32
  let l := (List.range (vbSlots b)).map (fun k => (k, b.slots.getD k VSlot.empty))
  match searchTarget s t (coreCluster c) (vbSize b) 8 l with
  | some (m, c', i', g) =>
    (moveBuffer s t c i m c' i' g,
      (old, BitVec.ofNat 32 (lsFlat t c' (g * 0x4000)), (versionsOf l).filter (fun v => !(versionsOf m).contains v)))
  | none => (disableVb s t c i 0, (old, 0xFFFF_FFFF, versionsOf l))

/-- The entries of a version list, two to an entry. -/
def versionEntries : List (BitVec 32) → List (Nat × Word × Word)
  | [] => []
  | [v] => [(2, v.setWidth 64, 0)]
  | v :: w :: l => (2, word (v.toNat + w.toNat * 2 ^ 32), 0) :: versionEntries l

/-- The run of entries of a SPIRE_RETIRED event (R371), posted after SPIRE_LOST too, with carrier 0 (DEDUCED, log 133). -/
def postRetired (s : State) (t : BitVec 3) (r : Retire) : State :=
  let es := [(0, word (r.spire.toNat + r.carrier.toNat * 2 ^ 16), word r.report.length)] ++
    r.report.flatMap (fun x => (1, word (x.1.toNat + x.2.1.toNat * 2 ^ 32), word x.2.2.length) :: versionEntries x.2.2) ++ [(0xFF, 0, 0)]
  (List.range es.length).foldl (fun s k =>
    let e := es.getD k (0, 0, 0)
    postEvent s t 0x4D e.2.1 e.2.2 (k * 256 + e.1) 0xFF) s

/-- Change the retirement of a spire. -/
def modRetire (s : State) (t : BitVec 3) (spire : BitVec 5) (f : Retire → Retire) : State :=
  modTower s t (fun w => { w with retires := w.retires.map (fun r => if r.spire = spire then f r else r) })

/-- BUFFER_MIGRATION (R67): the next step of the buffer in hand; with none left, the event of step 5 of R65. -/
def execBufferMigration (t : BitVec 3) (spire : BitVec 5) (s : State) : Host.Outcome State Fault Refusal :=
  match (getTower s t).retires.find? (fun r => r.spire = spire && r.moved) with
  | none => .next s
  | some r =>
    let c := columnCore spire.toNat 1
    match r.todo, r.stamp with
    | [], _ => .next (postRetired (modTower s t (fun w => { w with retires := w.retires.filter (fun x => x.spire ≠ spire) })) t r)
    | i :: _, none =>
      let b := getVb s (.core t c) i
      if vbOn b then
        let s1 := bumpEntries s (vbSlotAdr t c b 0) (vbSlots b * vbSize b * 0x4000)
        .next (modRetire { s1 with nextId := s1.nextId + 1 } t spire (fun x => { x with stamp := some s1.nextId }))
      else .next (modRetire s t spire (fun x => { x with todo := x.todo.tail }))
    | i :: l, some n =>
      let b := getVb s (.core t c) i
      if vbOn b = false then .next (modRetire s t spire (fun x => { x with todo := l, stamp := none }))
      else if rangeBusy s n (vbSlotAdr t c b 0) (vbSlots b * vbSize b * 0x4000) then .next s
      else
        let m := migrateBuffer s t c i
        .next (modRetire m.1 t spire (fun x => { x with todo := l, stamp := none, report := x.report ++ [m.2] }))

/-! ### Background zeroing (R26, R27) -/

/-- BACKGROUND_ZEROING: the pending line or page that holds the byte at flat address `unit` is zero at its home. -/
def execBackgroundZeroing (unit : Nat) (s : State) : Host.Outcome State Fault Refusal :=
  match s.zero.find? (fun z => decide (z.base ≤ unit) && decide (unit < z.base + z.len)) with
  | none => .next s
  | some z => .next { s with zero := if z.page then s.zero.filter (fun x => x ≠ z) else clearPending s.zero (unit / 64 * 64) 64 }

end Sys2Proof.Machine
end

