-- ==== Sys2Proof/Machine/SysRegs.lean ====
section
/-!
DEFINITION. The system registers and the actions their writes begin (spec 15_task_sequence_system.md R348, R350, R351, with the
maps of 03, 04, 07, 09, 10 and 17).
-/
namespace Sys2Proof.Machine

/-! ### What the registers of one tower select -/

/-- The context that VCSEL selects (R78). -/
def selCtx (s : State) (t : BitVec 3) : BitVec 12 := BitVec.ofNat 12 (getTower s t).vcsel.toNat
/-- The compute core that CSEL selects. -/
def selCore (s : State) (t : BitVec 3) : BitVec 6 := BitVec.ofNat 6 (getTower s t).sup.csel.toNat
/-- The task that TSEL names, while it is PLACED or SUSPENDED on the tower (R351). -/
def selTask (s : State) (t : BitVec 3) : Option Task :=
  (findTask s ((getTower s t).sup.tsel.setWidth 32)).filter (fun k => decide (k.home = t) && decide (k.status ≠ .ready))
/-- The handle that HSEL shows. -/
def selHandle (s : State) (t : BitVec 3) : Nat := bits (getTower s t).sup.hsel.toNat 4 0

/-! ### Reads (R348) -/

/-- TSTAT (R178). -/
def tstat (s : State) : Word :=
  word ((if s.pkg.lock then 2 ^ 63 else 0) + s.pkg.port.toNat * 2 ^ 62 + (if s.pkg.stepped then 2 ^ 61 else 0) + s.pkg.offset.toNat)

/-- The time registers, which every core reaches (R177). -/
def readTime (s : State) (n : Nat) : Option Word :=
  match n with
  | 0 => some s.pkg.cyc
  | 1 => some (word (ptpt s))
  | 2 => some s.pkg.tofs
  | 3 => some s.pkg.trate
  | 4 => some s.pkg.frame
  | 5 => some s.pkg.fstart
  | 6 => some (tstat s)
  | 7 => some s.pkg.frmcfg
  | _ => none

/-- CSGEN (R351). -/
def csgen (c : CoreSt) : Word :=
  if c.cur1 then word (c.gen0.toNat * 2 ^ 16 + c.gen1.toNat) else word (c.gen1.toNat * 2 ^ 16 + c.gen0.toNat)

/-- The register of a compute core that a number names (R350): its own syndrome reads zero (R365). -/
def readCompute (s : State) (t : BitVec 3) (c : BitVec 6) (n : Nat) : Option Word :=
  let core := getCore s (.core t c)
  let k := core.task
  match n with
  | 0x10 => some (k.fps.setWidth 64)
  | 0x11 => some (word (k.earea.toNat * 64))
  | 0x12 => some k.tbud
  | 0x13 => some (mapGet 0 (getTower s t).bud k.ctx.toNat)
  | 0x14 => some (k.num.setWidth 64)
  | 0x15 => some (csgen core)
  | 0x16 => some core.cfm
  | 0x60 => some 0
  | 0x61 => some 0
  | 0x62 => some 0
  | 0x63 => some 0
  | 0x64 => some (getTower s t).fmr
  | _ => readTime s n

/-- A context's entry of a root array. -/
def rootOf (m : FMap Word) (ctx : BitVec 12) : Word := mapGet 0 m ctx.toNat

/-- The registers of the tables: numbers 0x020 to 0x02B. -/
def readTables (s : State) (t : BitVec 3) (n : Nat) : Option Word :=
  let w := getTower s t
  let ctx := selCtx s t
  match n with
  | 0x20 => some w.vcsel
  | 0x21 => some (rootOf w.vroot ctx)
  | 0x22 => some (rootOf w.otroot ctx)
  | 0x23 => some (rootOf w.tkroot ctx)
  | 0x24 => some (w.otd.getD 0 0)
  | 0x25 => some (w.otd.getD 1 0)
  | 0x26 => some (w.otd.getD 2 0)
  | 0x27 => some (w.otd.getD 3 0)
  | 0x28 => some 0
  | 0x29 => some (word ((if w.otPend.isSome then 2 ^ 63 else 0) + w.otSt.toNat))
  | 0x2A => some 0
  | 0x2B => some (if s.pkg.xinv.isSome then word (2 ^ 63) else 0)
  | _ => none

/-- A versioned buffer's registers through CSEL: zero on a draft core (R350). -/
def readBuffers (s : State) (t : BitVec 3) (n : Nat) : Option Word :=
  let c := selCore s t
  if 0x38 ≤ n ∧ n < 0x40 then some (if coreLayer c = 0 then 0 else (getVb s (.core t c) (n - 0x38)).desc)
  else if 0x40 ≤ n ∧ n < 0x48 then some (if coreLayer c = 0 then 0 else vbsWord (getVb s (.core t c) (n - 0x40)))
  else none

/-- The rest of the supervisor core's registers (R350). -/
def readSupRest (s : State) (t : BitVec 3) (n : Nat) : Option Word :=
  let w := getTower s t
  let own := getCore s (.sup t)
  let sel := getCore s (.core t (selCore s t))
  let h := handleReg own.task (selHandle s t)
  match n with
  | 0x12 => some (match selTask s t with
      | some k => k.tbud
      | none => 0)
  | 0x13 => some (rootOf w.bud (selCtx s t))
  | 0x16 => some sel.cfm
  | 0x30 => some w.sup.csel
  | 0x31 => some w.sup.tsel
  | 0x50 => some (word (w.spFree.toNat * 2 ^ 32 + w.rerouted.toNat))
  | 0x51 => some (w.spSub.setWidth 64)
  | 0x52 => some w.spThr
  | 0x53 => some 0
  | 0x58 => some w.hcw
  | 0x60 => some own.fsyn
  | 0x61 => some own.fadr
  | 0x62 => some own.fbnd
  | 0x63 => some own.fslt
  | 0x64 => some w.fmr
  | 0x68 => some w.sup.sepc
  | 0x69 => some w.sup.stvec
  | 0x6A => some w.sup.sstat
  | 0x70 => some w.sup.hsel
  | 0x71 => some (h.bits.setWidth 64)
  | 0x72 => some ((h.bits >>> 64).setWidth 64)
  | 0x73 => some (word (h.pa.toNat * 2 ^ 16))
  | 0x78 => some w.tfcore
  | 0x79 => some w.tfva
  | 0x7A => some w.tfleaf
  | 0x7B => some 0
  | 0x80 => some 0
  | 0x81 => some w.svcv
  | 0x82 => some 0
  | 0x83 => some 0
  | 0xC0 => some sel.fsyn
  | 0xC1 => some sel.fadr
  | 0xC2 => some sel.fbnd
  | 0xC3 => some sel.fslt
  | _ => if 0x88 ≤ n ∧ n < 0x90 then some (mapGet 0 w.sup.crpy (n - 0x88)) else none

/-- The register of a core that a number names, if the core has it (R348, R350). -/
def readReg (s : State) (a : Agent) (n : Nat) : Option Word :=
  match a with
  | .core t c => readCompute s t c n
  | .sup t =>
    match readTime s n with
    | some x => some x
    | none =>
      match readTables s t n with
      | some x => some x
      | none =>
        match readBuffers s t n with
        | some x => some x
        | none => readSupRest s t n

/-! ### Writes of the package's time (R177 to R179, R187) -/

/-- TOFS: device time moves, and the check points it passes are skipped (R187). -/
def writeTofs (s : State) (v : Word) : State :=
  if v = s.pkg.tofs then s
  else
    let s1 := { s with pkg := { s.pkg with tofs := v, stepped := true } }
    ([0, 1, 2, 3, 4, 5, 6, 7] : List (BitVec 3)).foldl (fun s t => (streamsOn s t).foldl (fun s n => skipTicks s t n) s) s1

/-- TOFS_WRITE. -/
def execTofsWrite (v : BitVec 64) (s : State) : Host.Outcome State Fault Refusal := .next (writeTofs s v)

/-- TRATE: a signed trim within 200,000 parts per 10^9 (R177). -/
def writeTrate (s : State) (v : Word) : RegAct :=
  let x := signed 32 v.toNat
  if 2 ^ 32 ≤ v.toNat ∨ x < -200000 ∨ 200000 < x then .illegal else .done { s with pkg := { s.pkg with trate := v } }

/-- FRMCFG (R179): taken over at the next frame start. -/
def writeFrmcfg (s : State) (v : Word) : RegAct :=
  let fper := bits v.toNat 63 32
  let tpf := bits v.toNat 12 0
  if bits v.toNat 31 13 ≠ 0 ∨ tpf = 0 ∨ 4096 < tpf ∨ fper % tpf ≠ 0 ∨ fper / tpf < 1600 then .illegal
  else .done { s with pkg := { s.pkg with frmcfg := v } }

/-- FRMCFG_WRITE. -/
def execFrmcfgWrite (v : BitVec 64) (s : State) : Host.Outcome State Fault Refusal := (writeFrmcfg s v).orElse s

/-- TSTAT: STEPPED is cleared by writing 1 (R178). -/
def writeTstat (s : State) (v : Word) : State :=
  if v.getLsbD 61 then { s with pkg := { s.pkg with stepped := false } } else s

/-! ### Budgets and features (R148, R150, R151) -/

/-- BUD of a context on a tower: a refill lets its waiting tasks be placed (R149). -/
def writeBud (s : State) (t : BitVec 3) (ctx : BitVec 12) (v : Word) : State :=
  let s1 := modTower s t (fun w => { w with bud := mapPut w.bud ctx.toNat v })
  if 0 < v.toInt then resumeSuspended (wakeIdle s1 t) t ctx else s1

/-- BUD_WRITE. -/
def execBudWrite (t : BitVec 3) (ctx : BitVec 12) (v : BitVec 64) (s : State) : Host.Outcome State Fault Refusal :=
  .next (writeBud s t ctx v)

/-- TBUD of the task that TSEL names (R351). -/
def writeTbud (s : State) (t : BitVec 3) (v : Word) : State :=
  match selTask s t with
  | none => s
  | some k => resumeSuspended (modTaskNum s k.num (fun x => { x with tbud := v })) t k.ctx

/-- CFM of a core: bits that the layer or the fuses deny stay 0, SCAL stays as it is (R150). -/
def writeCfm (s : State) (t : BitVec 3) (c : BitVec 6) (v : Word) : State :=
  let x := getCore s (.core t c)
  let allowed := cfmReset (coreKey (.core t c)) &&& ~~~x.fused
  putCfm s t c ((v &&& allowed &&& ~~~1#64) ||| (x.cfm &&& 1#64))

/-- CFM_WRITE. -/
def execCfmWrite (t : BitVec 3) (c : BitVec 6) (v : BitVec 64) (s : State) : Host.Outcome State Fault Refusal :=
  .next (writeCfm s t c v)

/-! ### Roots and selectors (R78, R139) -/

/-- Store a word where its reserved bits are zero. -/
def putIf (ok : Bool) (s : State) : RegAct := if ok then .done s else .illegal

/-- Change the supervisor core's own registers of a tower. -/
def modSup (s : State) (t : BitVec 3) (f : SupSt → SupSt) : State := modTower s t (fun w => { w with sup := f w.sup })

/-- A root register: its reserved bits are those below `lo` and [59:36]. -/
def rootOk (v : Word) (lo : Nat) : Bool := decide (bits v.toNat 59 36 = 0) && decide (v.toNat % 2 ^ lo = 0)

/-- The table registers 0x020 to 0x02B (R78, R82, R87, R139). -/
def writeTables (s : State) (t : BitVec 3) (n : Nat) (v : Word) : RegAct :=
  let ctx := (selCtx s t).toNat
  match n with
  | 0x20 => putIf (decide (v.toNat < 2 ^ 12)) (modTower s t (fun w => { w with vcsel := v }))
  | 0x21 => putIf (rootOk v 14) (modTower s t (fun w => { w with vroot := mapPut w.vroot ctx v }))
  | 0x22 => putIf (rootOk v 21) (modTower s t (fun w => { w with otroot := mapPut w.otroot ctx v }))
  | 0x23 => putIf (rootOk v 17) (modTower s t (fun w => { w with tkroot := mapPut w.tkroot ctx v }))
  | 0x24 => .done (modTower s t (fun w => { w with otd := setAt w.otd 0 v }))
  | 0x25 => .done (modTower s t (fun w => { w with otd := setAt w.otd 1 v }))
  | 0x26 => .done (modTower s t (fun w => { w with otd := setAt w.otd 2 v }))
  | 0x27 => .done (modTower s t (fun w => { w with otd := setAt w.otd 3 v }))
  | 0x28 => writeOtw s t v
  | 0x29 => .done s
  | 0x2A => writeXinv s v
  | _ => .done s

/-! ### The host-command window (R195) -/

/-- Does a stream hold one of the slots of the window? -/
def windowHeld (s : State) (t : BitVec 3) : Bool :=
  (List.range 8).any (fun i => stOn s t (760 + i) && decide (streamState s t (760 + i) < 2))

/-- HCW (R195). The first window opened at step 6 completes the boot (R391, R394; DEDUCED, log 48). -/
def writeHcw (s : State) (t : BitVec 3) (v : Word) : RegAct :=
  if v.toNat % 2 ^ 63 ≠ 0 ∨ (bit v.toNat 63 = true ∧ windowHeld s t = true) then .illegal
  else
    let s1 := modTower s t (fun w => { w with hcw := v })
    .done (if v.getLsbD 63 ∧ s.pkg.step = 6 then { s1 with pkg := { s1.pkg with step := 0, svn := s.pkg.newSvn } } else s1)

/-- HCW_WRITE. -/
def execHcwWrite (t : BitVec 3) (v : BitVec 64) (s : State) : Host.Outcome State Fault Refusal := (writeHcw s t v).orElse s

/-! ### Resolving a freeze (R351, R372) -/

/-- A frozen core goes on at its faulting bundle; a budget trap whose cause remains is due again (R372). -/
def resumeCore (s : State) (t : BitVec 3) (c : BitVec 6) : State :=
  modCore s (.core t c) (fun x =>
    { x with
      frozen := false, suspend := false, thawed := some s.pkg.cyc, fsyn := x.fsyn &&& ~~~(1#64 <<< 61)
      task := { x.task with trapDue := if budgetFrozen x then budgetCause s t x.task else x.task.trapDue } })

/-- ACT resume; a kill that waits for the freeze wins (R373). -/
def actResume (s : State) (t : BitVec 3) (c : BitVec 6) : State :=
  let x := getCore s (.core t c)
  if x.frozen then (if x.kill then takeKill s t c else resumeCore s t c) else s

/-- ACT suspend: the frozen task is saved with its snapshot as soon as the conditions of R111 hold (DEDUCED, log 65). -/
def actSuspend (s : State) (t : BitVec 3) (c : BitVec 6) : State :=
  let x := getCore s (.core t c)
  if x.frozen then
    if x.kill then takeKill s t c
    else if saveReady s (.core t c) ∧ (getTower s t).ready.length < 16384 then saveTask s t c true
    else modCore s (.core t c) (fun x => { x with suspend := true })
  else s

/-- CFSYN_RESUME (R372). -/
def execCfsynResume (t : BitVec 3) (c : BitVec 6) (s : State) : Host.Outcome State Fault Refusal := .next (actResume s t c)

/-- CFSYN_SUSPEND (R372). -/
def execCfsynSuspend (t : BitVec 3) (c : BitVec 6) (s : State) : Host.Outcome State Fault Refusal := .next (actSuspend s t c)

/-- A write of CFSYN (R365). -/
def writeCfsyn (s : State) (t : BitVec 3) (v : Word) : RegAct :=
  match bits v.toNat 63 62 with
  | 1 => .done (actResume s t (selCore s t))
  | 2 => .done (actSuspend s t (selCore s t))
  | 3 => .illegal
  | _ => .done s

/-- Is a core frozen by a TRANSLATION_ASSIST trap? -/
def walkFrozen (x : CoreSt) : Bool := x.frozen && decide (bits x.fsyn.toNat 47 32 = 0x21)

/-- TFGO (R351): it resolves TRANSLATION_ASSIST only. -/
def writeTfgo (s : State) (t : BitVec 3) (v : Word) : RegAct :=
  let w := getTower s t
  let x := v.toNat
  let size := bits x 61 60
  let c := BitVec.ofNat 6 w.tfcore.toNat
  let core := getCore s (.core t c)
  if size = 3 ∨ bits x 59 0 ≠ 0 then .illegal
  else if bit x 63 = false then .done s
  else if bit x 62 then
    .done (if walkFrozen core then
        freeze (resumeCore s t c) t c (mkFault .translation core.fadr 9)
      else s)
  else if leafOk s size w.tfleaf.toNat = false then .illegal
  else
    .done (if walkFrozen core then
        resumeCore (tcFill s (.core t c) ⟨core.task.ctx, BitVec.ofNat 2 size, vpageOf size w.tfva, w.tfleaf⟩) t c
      else s)

/-- TFGO_FILL: the write with FAIL = 0. -/
def execTfgoFill (t : BitVec 3) (v : BitVec 64) (s : State) : Host.Outcome State Fault Refusal :=
  if v.getLsbD 62 then .next s else (writeTfgo s t v).orElse s

/-- TFGO_FAIL: the write with FAIL = 1. -/
def execTfgoFail (t : BitVec 3) (v : BitVec 64) (s : State) : Host.Outcome State Fault Refusal :=
  if v.getLsbD 62 then (writeTfgo s t v).orElse s else .next s

/-! ### Tasks (R351) -/

/-- SEVW: the EVP of a task is set; an unknown number is ignored. -/
def writeSevw (s : State) (v : Word) : RegAct :=
  if 2 ^ 32 ≤ v.toNat then .illegal
  else
    match findTask s (v.setWidth 32) with
    | some k => .done (if holdsEvent k then setEvp s k.num else s)
    | none => .done s

/-- SEVW as a step of its own. -/
def execSevw (_t : BitVec 3) (v : BitVec 64) (s : State) : Host.Outcome State Fault Refusal := (writeSevw s v).orElse s

/-- The answer to a task that waits in SVC: into its register, or into its save state. -/
def answerSvc (s : State) (num : BitVec 32) (x : Word) : State :=
  match findTask s num with
  | none => s
  | some k =>
    match k.svcReg, k.svcVal with
    | some r, none =>
      if k.status = .placed then
        modTaskNum s num (fun y => { y with svcReg := none, due := y.due ++ [⟨y.issued, y.issued, 11, .scalar r x, none, 0, none, none⟩] })
      else modTaskNum s num (fun y => { y with svcVal := some x })
    | _, _ => s

/-- SVCR. -/
def writeSvcr (s : State) (t : BitVec 3) (v : Word) : RegAct :=
  if bits v.toNat 62 32 ≠ 0 then .illegal
  else .done (if bit v.toNat 63 then answerSvc s (v.setWidth 32) (getTower s t).svcv else s)

/-- SVCR as a step of its own. -/
def execSvcr (t : BitVec 3) (v : BitVec 64) (s : State) : Host.Outcome State Fault Refusal := (writeSvcr s t v).orElse s

/-- The tasks of a context, of one tower or of all. -/
def tasksOf (s : State) (t : Option (BitVec 3)) (ctx : BitVec 12) : List (BitVec 32) :=
  let here := fun (k : Task) => decide (k.ctx = ctx) && t.all (fun x => decide (x = k.home))
  (s.cores.filterMap (fun c => if c.1 < 512 ∧ c.2.live ∧ here c.2.task then some c.2.task.num else none)) ++
    s.tasks.filterMap (fun k => if here k.2 then some k.2.num else none)

/-- TKILL. -/
def writeTkill (s : State) (t : BitVec 3) (v : Word) : RegAct :=
  let ctx := BitVec.ofNat 12 (bits v.toNat 43 32)
  if bits v.toNat 61 44 ≠ 0 then .illegal
  else
    match bits v.toNat 63 62 with
    | 1 => .done (killTask s (v.setWidth 32))
    | 2 => .done ((tasksOf s (some t) ctx).foldl killTask s)
    | 3 => .done ((tasksOf s none ctx).foldl killTask s)
    | _ => .done s

/-- TKILL_TASK: the write with MODE 1. -/
def execTkillTask (t : BitVec 3) (v : BitVec 64) (s : State) : Host.Outcome State Fault Refusal :=
  if bits v.toNat 63 62 = 1 then (writeTkill s t v).orElse s else .next s

/-- TKILL_CONTEXT_TOWER: the write with MODE 2. -/
def execTkillContextTower (t : BitVec 3) (v : BitVec 64) (s : State) : Host.Outcome State Fault Refusal :=
  if bits v.toNat 63 62 = 2 then (writeTkill s t v).orElse s else .next s

/-- TKILL_CONTEXT_PACKAGE: the write with MODE 3. -/
def execTkillContextPackage (t : BitVec 3) (v : BitVec 64) (s : State) : Host.Outcome State Fault Refusal :=
  if bits v.toNat 63 62 = 3 then (writeTkill s t v).orElse s else .next s

/-! ### The supervisor core's own registers (R351, R365) -/

/-- FSYN of the supervisor core: OVF is cleared by writing 1; it is never frozen, so ACT does nothing. -/
def writeFsyn (s : State) (t : BitVec 3) (v : Word) : RegAct :=
  if bits v.toNat 63 62 = 3 then .illegal
  else .done (if bit v.toNat 60 then modCore s (.sup t) (fun c => { c with fsyn := c.fsyn &&& ~~~(1#64 <<< 60) }) else s)

/-- Change the handle that HSEL shows (DEDUCED, log 72). -/
def modHandle (s : State) (t : BitVec 3) (f : Handle → Handle) : State :=
  let n := selHandle s t
  modTaskOf s (.sup t) (fun k => { k with h := mapPut k.h n (f (handleReg k n)) })

/-- HLO: the bits of R85 that exist. -/
def writeHlo (s : State) (t : BitVec 3) (v : Word) : State :=
  modHandle s t (fun h => { h with bits := (h.bits >>> 64 <<< 64) ||| BitVec.ofNat 128 (bits v.toNat 51 16 * 2 ^ 16) })

/-- HHI (R351). -/
def writeHhi (s : State) (t : BitVec 3) (v : Word) : RegAct :=
  let x := v.toNat
  if bit x 63 ∧ (4 ≤ bits x 62 59 ∨ bits x 55 54 = 3 ∨ bits x 37 0 ≠ 0) then .illegal
  else .done (modHandle s t (fun h =>
    { h with bits := BitVec.ofNat 128 (bits x 63 38 * 2 ^ 102) ||| BitVec.ofNat 128 (bits h.bits.toNat 63 0) }))

/-- The selectors, trap registers and handle registers (R351). -/
def writeSupOwn (s : State) (t : BitVec 3) (n : Nat) (v : Word) : RegAct :=
  let x := v.toNat
  match n with
  | 0x30 => putIf (decide (x < 64)) (modSup s t (fun u => { u with csel := v }))
  | 0x31 => putIf (decide (x < 2 ^ 32)) (modSup s t (fun u => { u with tsel := v }))
  | 0x60 => writeFsyn s t v
  | 0x68 => .done (modSup s t (fun u => { u with sepc := v }))
  | 0x69 => putIf (decide (x % 4 = 0)) (modSup s t (fun u => { u with stvec := v }))
  | 0x6A => putIf (decide (x < 4)) (modSup s t (fun u => { u with sstat := v }))
  | 0x70 => putIf (decide (x < 32)) (modSup s t (fun u => { u with hsel := v }))
  | 0x71 => .done (writeHlo s t v)
  | 0x72 => writeHhi s t v
  | 0x73 =>
    putIf (decide (bits x 63 52 = 0) && decide (bits x 15 0 = 0)) (modHandle s t (fun h => { h with pa := BitVec.ofNat 36 (bits x 51 16) }))
  | _ => .done s

/-- The registers of the tower and of the core that CSEL selects. -/
def writeSupRest (s : State) (t : BitVec 3) (n : Nat) (v : Word) : RegAct :=
  let x := v.toNat
  match n with
  | 0x12 => .done (writeTbud s t v)
  | 0x13 => .done (writeBud s t (selCtx s t) v)
  | 0x16 => .done (writeCfm s t (selCore s t) v)
  | 0x52 => putIf (decide (x < 2 ^ 16)) (modTower s t (fun w => { w with spThr := v }))
  | 0x53 => writeSprq s t v
  | 0x58 => writeHcw s t v
  | 0x64 => putIf (decide (x < 2 ^ 9)) (modTower s t (fun w => { w with fmr := v }))
  | 0x78 => putIf (decide (x < 64)) (modTower s t (fun w => { w with tfcore := v }))
  | 0x79 => .done (modTower s t (fun w => { w with tfva := v }))
  | 0x7A => .done (modTower s t (fun w => { w with tfleaf := v }))
  | 0x7B => writeTfgo s t v
  | 0x80 => writeSevw s v
  | 0x81 => .done (modTower s t (fun w => { w with svcv := v }))
  | 0x82 => writeSvcr s t v
  | 0x83 => writeTkill s t v
  | 0xC0 => writeCfsyn s t v
  | _ => writeSupOwn s t n v

/-- The time registers from the privileged view. -/
def writeTime (s : State) (n : Nat) (v : Word) : RegAct :=
  match n with
  | 2 => .done (writeTofs s v)
  | 3 => writeTrate s v
  | 6 => .done (writeTstat s v)
  | 7 => writeFrmcfg s v
  | _ => .done s

/-- A write of a register by a compute core: RWP fields fault PRIV (R6, R348), and so does SPRQ, which the compute cores do not have
(R64 against R348; DEDUCED, log 112). -/
def writeCompute (s : State) (t : BitVec 3) (c : BitVec 6) (n : Nat) (v : Word) : RegAct :=
  let a := Agent.core t c
  if n = 0x53 then .priv
  else if readCompute s t c n = none then .illegal
  else if [2, 3, 7, 0x12, 0x13, 0x16, 0x64].contains n then .priv
  else
    match n with
    | 6 => .done (writeTstat s v)
    | 0x10 => .done (modTaskOf s a (fun k => { k with fps := k.fps &&& ~~~v.setWidth 3 }))
    | 0x11 => .done (modTaskOf s a (fun k => { k with earea := BitVec.ofNat 14 (bits v.toNat 19 6) }))
    | 0x60 => if bits v.toNat 63 62 = 3 then .illegal else .done s
    | _ => .done s

/-- A write of a register (R348). -/
def writeReg (s : State) (a : Agent) (n : Nat) (v : Word) : RegAct :=
  match a with
  | .core t c => writeCompute s t c n v
  | .sup t =>
    if readReg s a n = none then .illegal
    else if n < 8 then writeTime s n v
    else if 0x20 ≤ n ∧ n < 0x2C then writeTables s t n v
    else if 0x38 ≤ n ∧ n < 0x40 then writeVbd s t (selCore s t) (n - 0x38) v
    else if 0x40 ≤ n ∧ n < 0x48 then (if coreLayer (selCore s t) = 0 then .illegal else .done s)
    else writeSupRest s t n v

/-- REGISTER_WRITE (R348). -/
def execRegisterWrite (a : Agent) (n : BitVec 12) (v : BitVec 64) (s : State) : Host.Outcome State Fault Refusal :=
  (writeReg s a n.toNat v).orElse s

end Sys2Proof.Machine
end

