-- ==== Sys2Proof/Machine/System.lean ====
section
/-!
DEFINITION. The SYS slot: tasks, time, budgets and system instructions (spec 15_task_sequence_system.md R341, R342, R345, R346,
R348, R349). The watch, timetable and version instructions stand with their units, CSLD with the macros.
-/
namespace Sys2Proof.Machine

/-- A scalar result of the SYS slot. -/
def sysOut (lat : Nat) (f : SysF) (x : Word) (s : State) : Act := .done (pushScalar s lat 11 f.d.toNat x)

/-! ### SPAWN (R341) -/

/-- The tower that SPAWN names. -/
def spawnTower (f : SysF) (s : State) : BitVec 3 :=
  if f.imm.getLsbD 15 then agentTower s.cur else BitVec.ofNat 3 (f.imm.toNat / 2 ^ 12)

/-- The accesses of the acting task with a home in PACKAGE, which precede those of the spawned task (R110). -/
def spawnAfter (s : State) : List Nat := ((myAcc s s.cur (curTask s).num).filter (homeInScope 3)).map (fun x => x.id)

/-- Are a tower's ready queues full, counting launches under way (R352)? -/
def queuesFull (w : TowerSt) : Bool := decide (16384 ≤ w.ready.length + w.launches.length)

/-- SPAWN. -/
def sylSpawn (f : SysF) (s : State) : Act :=
  let k := curTask s
  let a := (scalarIn k f.a).toNat
  let t := spawnTower f s
  if bits a 63 60 ≠ 0 ∨ (isSup s.cur = false ∧ bits a 63 48 ≠ 0) then .trap (bundleFault s .illegalOperand 11)
  else if (getTower s t).inReset ∨ queuesFull (getTower s t) then .stall
  else
    let ctx := if isSup s.cur then BitVec.ofNat 12 (bits a 59 48) else k.ctx
    .done (addLaunch s t ctx (f.imm.toNat % 2 ^ 12) (BitVec.ofNat 48 a) (scalarIn k f.b)
      (if isSup s.cur then .supervisor else .spawn) .plain (some (s.cur, k.num, f.d.toNat, k.issued)) (spawnAfter s))

/-- SPAWN with its gate. -/
def execSpawn (h : Head) (f : SysF) (s : State) : Host.Outcome State Fault Refusal := runGated (.spawn h f) (sylSpawn f) s

/-! ### GBAR (R342) -/

/-- Are all accesses of the acting task's earlier bundles in a scope performed (R110)? (DEDUCED, log 68). -/
def scopeDrained (s : State) (scope : Nat) : Bool :=
  let k := curTask s
  k.macros.all (fun m => decide (m.born = k.issued)) &&
    !(myAcc s s.cur k.num).any (fun x => decide (x.born < k.issued) && isAccess x && homeInScope scope x)

/-- May a member arrive at the barrier: its mask lies in the gang, and agrees with the open episode, which names it? -/
def mayArrive (g : Gang) (mask scope member : Nat) : Bool :=
  decide (mask < 2 ^ g.members.length) &&
    (g.arrived.isEmpty || (maskNames g.mask member && decide (mask = g.mask) && decide (scope = g.scope)))

/-- GBAR: a member whose episode has ended issues; another arrives, and waits unless it is the last. Its departure is an ACQ fence, and
outside a gang it is a fence of both kinds (R110). -/
def sylGbar (f : SysF) (s : State) : Act :=
  let k := curTask s
  let scope := f.imm.toNat % 8
  let mask := f.imm.toNat / 256 % 256
  match gangOf s k.num with
  | none => .done (placeMark 11 (.fence true true scope) s)
  | some g =>
    let leave := fun (s : State) => Act.done (placeMark 11 (.fence true false scope) s)
    if g.passed.contains k.member then
      leave (modGang s k.num (fun g => { g with passed := g.passed.filter (fun m => m ≠ k.member) }))
    else if g.arrived.contains k.member then .stall
    else if scopeDrained s scope = false then .stall
    else if mayArrive g mask scope k.member = false then .trap (bundleFault s .illegalOperand 11)
    else
      let h := arrive mask scope k.member g
      if h.passed.contains k.member then
        let rest := { h with passed := h.passed.filter (fun m => m ≠ k.member) }
        leave (issueAgain (modGang s k.num (fun _ => rest)) (passedOf rest))
      else .wait (.barrier mask scope)

/-- GBAR with its gate. -/
def execGbar (h : Head) (f : SysF) (s : State) : Host.Outcome State Fault Refusal := runGated (.gbar h f) (sylGbar f) s

/-! ### Time (R345) -/

/-- The value that RDTIME selects. -/
def timeValue (s : State) (sel : Nat) : Word :=
  match sel with
  | 0 => s.pkg.cyc
  | 1 => word (ptpt s)
  | 2 => s.pkg.frame
  | _ => word (curTick s)

/-- RDTIME. -/
def sylRdtime (f : SysF) (s : State) : Act := sysOut 2 f (timeValue s (f.imm.toNat % 4)) s

/-- RDTIME with its gate. -/
def execRdtime (h : Head) (f : SysF) (s : State) : Host.Outcome State Fault Refusal := runGated (.rdtime h f) (sylRdtime f) s

/-- WAITT.CYC. -/
def sylWaittCyc (f : SysF) (s : State) : Act :=
  if (scalarIn (curTask s) f.a).toNat ≤ s.pkg.cyc.toNat then .done s else .stall

/-- WAITT.CYC with its gate. -/
def execWaittCyc (h : Head) (f : SysF) (s : State) : Host.Outcome State Fault Refusal := runGated (.waittCyc h f) (sylWaittCyc f) s

/-- Has the key of a frame and a tick come (R183)? -/
def keyReached (s : State) (frame tick : Nat) : Bool :=
  let ahead := signed 32 (frame % 2 ^ 32 + 2 ^ 32 - frame32 s)
  decide (ahead < 0) || (decide (ahead = 0) && decide (tick ≤ curTick s))

/-- WAITT.TICK. -/
def sylWaittTick (f : SysF) (s : State) : Act :=
  let k := curTask s
  if keyReached s (scalarIn k f.a).toNat ((scalarIn k f.b).toNat % 2 ^ 12) then .done s else .stall

/-- WAITT.TICK with its gate. -/
def execWaittTick (h : Head) (f : SysF) (s : State) : Host.Outcome State Fault Refusal :=
  runGated (.waittTick h f) (sylWaittTick f) s

/-! ### BUDSET (R346) -/

/-- The new TBUD (DEDUCED, log 70). -/
def budsetValue (k : Task) (x : Word) : Word :=
  if k.counted = false then x else if x.toInt < k.tbud.toInt then x else k.tbud

/-- BUDSET: the old TBUD is the result; the limit is only ever lowered, and a task without one acquires it. -/
def sylBudset (f : SysF) (s : State) : Act :=
  let k := curTask s
  sysOut 1 f k.tbud (modTask s (fun t => { t with tbud := budsetValue k (scalarIn k f.a), counted := true }))

/-- BUDSET with its gate. -/
def execBudset (h : Head) (f : SysF) (s : State) : Host.Outcome State Fault Refusal := runGated (.budset h f) (sylBudset f) s

/-! ### MFSR and MTSR (R348) -/

/-- Does a result on its way come from an earlier-issued instruction that can raise a flag: a VEC result, a drain, a closing block
(R212)? -/
def flagDue (k : Task) : Bool :=
  k.due.any (fun d => decide (d.born ≠ k.issued) && (decide (d.slot = 4) || decide (d.slot = 6) || decide (d.flags ≠ 0)))

/-- MFSR of FPS waits for the macros, and for the results of earlier bundles that can raise a flag, which come due meanwhile (R212)
(DEDUCED, log 67). -/
def mfsrFps (f : SysF) (s : State) : Act :=
  if !(curTask s).macros.isEmpty then .stall
  else if flagDue (curTask s) then .wait .results
  else sysOut 4 f ((curTask s).fps.setWidth 64) s

/-- MFSR. -/
def sylMfsr (f : SysF) (s : State) : Act :=
  match readReg s s.cur f.imm.toNat with
  | none => .trap (bundleFault s .illegalOperand 11)
  | some x => if f.imm = 0x10 then mfsrFps f s else sysOut 4 f x s

/-- MFSR with its gate. -/
def execMfsr (h : Head) (f : SysF) (s : State) : Host.Outcome State Fault Refusal := runGated (.mfsr h f) (sylMfsr f) s

/-- MTSR: what the register's map says of the write. -/
def sylMtsr (f : SysF) (s : State) : Act :=
  match writeReg s s.cur f.imm.toNat (scalarIn (curTask s) f.a) with
  | .done s1 => .done s1
  | .illegal => .trap (bundleFault s .illegalOperand 11)
  | .priv => .trap (bundleFault s .priv 11)
  | .stall => .stall

/-- MTSR with its gate. -/
def execMtsr (h : Head) (f : SysF) (s : State) : Host.Outcome State Fault Refusal := runGated (.mtsr h f) (sylMtsr f) s

/-! ### SVC, ERET, TRAP, ICINV, HALT (R349) -/

/-- SVC: the event is posted; the task waits at the group boundary that follows for the answer to s[D]. -/
def sylSvc (f : SysF) (s : State) : Act :=
  match s.cur with
  | .core t _ =>
    let k := curTask s
    let s1 := postEvent s t 0x42 (scalarIn k f.a) (k.num.setWidth 64) (f.imm.toNat % 2 ^ 16) 0xFF
    .done (modTask s1 (fun t => { t with svcReg := some f.d.toNat }))
  | .sup _ => .done s

/-- SVC with its gate. -/
def execSvc (h : Head) (f : SysF) (s : State) : Host.Outcome State Fault Refusal := runGated (.svc h f) (sylSvc f) s

/-- ERET: the return from the supervisor core's trap. -/
def sylEret (_f : SysF) (s : State) : Act :=
  match s.cur with
  | .core _ _ => .done s
  | .sup t =>
    let s1 := returnTrap s t
    .done (modTask s1 (fun k => { k with skip := some k.pc }))

/-- ERET with its gate. -/
def execEret (h : Head) (f : SysF) (s : State) : Host.Outcome State Fault Refusal := runGated (.eret h f) (sylEret f) s

/-- TRAP: SOFTWARE_TRAP with the code and s[A]. -/
def sylTrap (f : SysF) (s : State) : Act :=
  .trap (mkFault .softwareTrap (scalarIn (curTask s) f.a) 11 (f.imm.toNat % 2 ^ 16))

/-- TRAP with its gate. -/
def execTrap (h : Head) (f : SysF) (s : State) : Host.Outcome State Fault Refusal := runGated (.trap h f) (sylTrap f) s

/-- Is a cached line one that ICINV names? -/
def icNamed (ctx : BitVec 12) (va : Word) (range : Nat) (l : IcLine) : Bool :=
  decide (l.ctx = ctx) &&
    (match range with
     | 0 => decide (l.line = va.toNat / 128)
     | 1 => decide (l.line / 512 = va.toNat / 2 ^ 16)
     | _ => true)

/-- Is a core reached by ICINV from another? -/
def icReached (who : Agent) (reach k : Nat) : Bool :=
  match reach with
  | 0 => decide (k = coreKey who)
  | 2 => decide (agentTower (keyAgent k) = agentTower who)
  | _ => true

/-- ICINV. -/
def sylIcinv (f : SysF) (s : State) : Act :=
  let k := curTask s
  let ctx := if isSup s.cur then BitVec.ofNat 12 (scalarIn k f.b).toNat else k.ctx
  .done { s with
    cores := s.cores.map (fun (c : Nat × CoreSt) =>
      if icReached s.cur (f.imm.toNat / 4 % 8) c.1 then
        (c.1, { c.2 with ic := c.2.ic.filter (fun l => !icNamed ctx (scalarIn k f.a) (f.imm.toNat % 4) l) })
      else c) }

/-- ICINV with its gate. -/
def execIcinv (h : Head) (f : SysF) (s : State) : Host.Outcome State Fault Refusal := runGated (.icinv h f) (sylIcinv f) s

/-- HALT. -/
def sylHalt (_f : SysF) (s : State) : Act :=
  match s.cur with
  | .core _ _ => .done s
  | .sup t => .done (haltSup s t)

/-- HALT with its gate. -/
def execHalt (h : Head) (f : SysF) (s : State) : Host.Outcome State Fault Refusal := runGated (.halt h f) (sylHalt f) s

end Sys2Proof.Machine
end

