-- ==== Sys2Proof/Machine/Macro.lean ====
section
/-!
DEFINITION. The macro-op sequencer: CSLD, MMT, MATT, and the event MACRO_BEGIN that begins the macro at the head of a core's
queue and then runs it, a beat of a K block or a page at a time (spec 14_vector_matrix.md R320 to R327, 10_number_formats.md
R214, R215).
-/
namespace Sys2Proof.Machine

/-! ### Control store (R321) -/

/-- The bank in use. -/
def curBank (c : CoreSt) : FMap (BitVec 512) := if c.cur1 then c.bank1 else c.bank0
/-- Its generation. -/
def curGen (c : CoreSt) : BitVec 16 := if c.cur1 then c.gen1 else c.gen0

/-- The records of a bank, in order from 0, as memory holds them. -/
def bankOf (s : State) (a : Nat) : FMap (BitVec 512) :=
  ((List.range 256).map (fun i => (i, BitVec.ofNat 512 (readNat s (a + 64 * i) 64)))).filter (fun x => x.2 ≠ 0)

/-- Load the bank that is not current and make it current. -/
def loadBank (bank : FMap (BitVec 512)) (c : CoreSt) : CoreSt :=
  let g := curGen c + 1
  if c.cur1 then { c with bank0 := bank, gen0 := g, cur1 := false } else { c with bank1 := bank, gen1 := g, cur1 := true }

/-- CSLD (R321, R349): it waits while a macro is bound to the bank that it loads, and while a spire of the block is held (R66)
(DEDUCED, log 87). -/
def sylCsld (f : SysF) (s : State) : Act :=
  withAnyBlock s 11 .load 16384 64 (scalarIn (curTask s) f.a) (fun e =>
    let a := e.adr
    let c := getCore s s.cur
    if (curTask s).macros.any (fun m => m.gen ≠ curGen c) ∨ rangeHeld s a 16384 = true then .stall
    else
      match firstLost s a 16384 with
      | some x => .trap (mkFault .uncorrected (endErrAdr e x) 11)
      | none =>
        let s1 := modCore s s.cur (loadBank (bankOf s a))
        sysOut 1 f ((curGen (getCore s1 s1.cur)).setWidth 64) s1)

/-- CSLD with its gate. -/
def execCsld (h : Head) (f : SysF) (s : State) : Host.Outcome State Fault Refusal := runGated (.csld h f) (sylCsld f) s

/-! ### MMT and MATT at their bundle (R320, R323, R324) -/

/-- Put a macro into the queue of the core that acts: bound to the current generation and its record, with its operands. -/
def queueMacro (kind : MacroKind) (f : SysF) (request : Word) (s : State) : Act :=
  match s.cur with
  | .sup _ => .done s
  | .core tw cc =>
    let k := curTask s
    let c := getCore s s.cur
    let rec0 := mapGet 0 (curBank c) (f.imm.toNat % 256)
    let off := (scalarIn k f.a).toNat
    if off % 64 ≠ 0 ∨ 2 ^ 20 ≤ off then .trap (bundleFault s .illegalOperand 11)
    else if 4 ≤ k.macros.length then .stall
    else
      let m : Macro :=
        { kind := kind, gen := curGen c, record := rec0, z := f.imm.toNat / 256 % 8, block := word (lsFlat tw cc off),
          request := request, status := f.d.toNat, bundle := k.pc, id := s.nextId, born := k.issued, flags := 0, begun := false, step := 0, beat := 0,
          st := [], fail := none }
      .done (modTask { s with nextId := s.nextId + 1 } (fun t => { t with macros := t.macros ++ [m] }))

/-- MMT. -/
def sylMmt (f : SysF) (s : State) : Act := queueMacro .mmt f 0 s

/-- MMT with its gate. -/
def execMmt (h : Head) (f : SysF) (s : State) : Host.Outcome State Fault Refusal := runGated (.mmt h f) (sylMmt f) s

/-- May the acting task run MATT over a request: on its own tower, open, of its context, and bound to it? -/
def mattMay (s : State) (w : Word) : Bool :=
  let k := curTask s
  let t := wordTower w
  let n := wordReq w
  decide (t = agentTower s.cur) && reqOpen s t n && decide (reqCtx s t n = k.ctx.toNat) && s.binds.contains ⟨t, n, k.num⟩

/-- MATT. -/
def sylMatt (f : SysF) (s : State) : Act :=
  let w := scalarIn (curTask s) f.b
  if bits w.toNat 60 11 ≠ 0 then .trap (bundleFault s .illegalOperand 11)
  else if mattMay s w = false then .trap (checkFault .rights (word (Config.freeNat s.free)) 11 0)
  else queueMacro .matt f w s

/-- MATT with its gate. -/
def execMatt (h : Head) (f : SysF) (s : State) : Host.Outcome State Fault Refusal := runGated (.matt h f) (sylMatt f) s

/-! ### Checks of the record and the command block (R322 to R324, R326) -/

/-- A word of a macro's record. -/
def Macro.rw (m : Macro) (i : Nat) : Nat := imageWord m.record.toNat i
/-- A word of a macro's command block. -/
def Macro.bw (s : State) (m : Macro) (i : Nat) : Nat := readNat s (m.block.toNat + 8 * i) 8

/-- A reserved code or width (R197). -/
def codeReserved (code sub : Nat) : Bool :=
  decide (code = 15) || (decide (code = 13) && decide (sub = 7)) ||
    (decide (code = 14) && decide (sub ≠ 0) && decide (sub ≠ 2) && decide (sub ≠ 6))

/-- Has a code a width? -/
def codeWidth (code : Nat) : Bool := decide (code = 13) || decide (code = 14)

/-- AFMT with its width. -/
def Macro.aCode (m : Macro) : Nat × Nat := (bits (m.rw 0) 55 52, bits (m.rw 0) 51 49)
/-- BFMT with its width. -/
def Macro.bCode (m : Macro) : Nat × Nat := (bits (m.rw 0) 48 45, bits (m.rw 0) 44 42)
/-- The A format. -/
def Macro.aFmt (m : Macro) : Option Fmt := arrayA m.aCode.1 (if codeWidth m.aCode.1 then m.aCode.2 else 0)
/-- The B format. -/
def Macro.bFmt (m : Macro) : Option Fmt := arrayB m.bCode.1 m.bCode.2
/-- X of the record. -/
def Macro.x (m : Macro) : Int := signed 16 (bits (m.rw 0) 31 16)
/-- NB. -/
def Macro.nb (m : Macro) : Nat := bits (m.rw 1) 31 24
/-- G. -/
def Macro.g (m : Macro) : Nat := bits (m.rw 1) 23 16
/-- Gs, the lanes of a segment (R308). -/
def Macro.gs (m : Macro) : Nat := 512 >>> m.g

/-- The fields of a record that both macros check, with code 4, and their words. -/
def commonBad (m : Macro) (kind : Nat) : List (Bool × Nat × Nat) :=
  let w0 := m.rw 0
  [(decide (bits w0 63 56 ≠ kind), 4, w0),
   (!codeWidth m.aCode.1 && decide (m.aCode.2 ≠ 0), 4, w0),
   (bit w0 40 && bit w0 39, 4, w0),
   (decide (bits w0 38 32 ≠ 0) || decide (bits w0 15 0 ≠ 0), 4, w0),
   (decide (bits (m.rw 1) 15 0 ≠ 0), 4, m.rw 1)] ++
    ([2, 3, 4, 5, 6, 7].map (fun i => (decide (m.rw i ≠ 0), 4, m.rw i)))

/-- What is wrong with an MMT, by the codes of R326 in rising order, each with the word at fault (DEDUCED, log 45). -/
def mmtBad (s : State) (m : Macro) : List (Bool × Nat × Nat) :=
  let b := m.bw s
  [(codeReserved m.aCode.1 m.aCode.2 || codeReserved m.bCode.1 m.bCode.2, 1, m.rw 0),
   (m.aFmt.isNone || m.bFmt.isNone, 2, m.rw 0),
   (decide (bits (b 0) 63 48 = 0), 3, b 0)] ++ commonBad m 1 ++
  [(decide (bits (b 0) 47 0 ≠ 0), 4, b 0),
   (decide (bits (b 1) 58 20 ≠ 0) || decide (2 ^ 20 < bits (b 1) 19 0 + 256), 4, b 1),
   (decide (bits (b 2) 63 20 ≠ 0), 4, b 2)] ++
    ([3, 4, 5, 6, 7].map (fun i => (decide (b i ≠ 0), 4, b i)))

/-- What is wrong with an MATT. -/
def mattBad (s : State) (m : Macro) : List (Bool × Nat × Nat) :=
  let b := m.bw s
  let rows := bits (b 1) 58 54 + 1
  [(codeReserved m.aCode.1 m.aCode.2 || codeReserved m.bCode.1 m.bCode.2, 1, m.rw 0),
   (m.aFmt.isNone || m.bFmt.isNone || decide (m.bCode.1 ≠ 13) || (decide (m.bCode.2 ≠ 2) && decide (m.bCode.2 ≠ 6)), 2, m.rw 0),
   (decide (m.nb = 0) || decide (16 < m.nb), 3, m.rw 1),
   (decide (m.g ≤ 4) && decide (m.gs - 2 < 32 * m.nb), 3, m.rw 1),
   (decide (bits (b 2) 63 32 + 64 < bits (b 3) 63 32), 3, b 3),
   (decide (vregs (curTask s) < bits (b 0) 9 0 + ceilDiv rows (2 ^ m.g)), 3, b 0)] ++ commonBad m 2 ++
  [(bit (m.rw 0) 41, 4, m.rw 0),
   (decide (4 < m.g), 4, m.rw 1),
   (decide (bits (b 0) 15 10 ≠ 0), 4, b 0),
   (decide (bits (b 1) 53 20 ≠ 0), 4, b 1),
   (decide (bits (b 2) 31 20 ≠ 0), 4, b 2),
   (decide (bits (b 3) 31 20 ≠ 0), 4, b 3)] ++
    ([4, 5, 6, 7].map (fun i => (decide (b i ≠ 0), 4, b i)))

/-! ### Reads of a macro -/

/-- What a step of a macro answers: it goes on, it is complete, it waits, it waits for its slice, its record or block is
ill-formed, or it takes a fault. -/
inductive MStep where
  | go (s : State)
  | done (s : State)
  | wait
  | slice
  | ill (code badw : Nat)
  | bad (f : FaultInfo) (s : State)
  deriving DecidableEq, Repr

/-- A read of a macro through its record, at an offset from its BASE. -/
def macroAsk (b : Rec) (off n : Nat) : Ask :=
  { recd := b, hnd := ⟨0, 0⟩, wired := some 0, kind := .load, unit := 1, es := 1, off := off, rows := [(0, off, n)], tile := false }

/-- Reads of a macro: checked, ordered after the accesses issued before it (R95, R320), free of errors. -/
def macroReads (s : State) (m : Macro) (recd : Nat) (asks : List Ask) : Except MStep VReg :=
  let k := curTask s
  if recPending s s.cur k.num recd then .error .wait
  else
    match poisonOf k (.record recd) with
    | some a => .error (.bad (mkFault .uncorrected a 11) s)
    | none =>
      match checkAsks s 11 asks with
      | .error f => .error (.bad f s)
      | .ok l =>
        let rs := l.flatMap Prod.snd
        let x := mkAccess s m.id 7 0 (.loadV 0) rs
        if heldBy x ((rs.map Run.adr).headD 0) (issuedBefore s s.cur m.id) then .error .wait
        else
          match l.findSome? (fun y => poisonAt s y.1 y.2) with
          | some a => .error (.bad (mkFault .uncorrected a 11) s)
          | none => .ok (loadRuns s rs)

/-- A read through a record of some bytes. -/
def macroRead (s : State) (m : Macro) (recd off n : Nat) : Except MStep Nat :=
  (macroReads s m recd [macroAsk (recReg (curTask s) recd) off n]).map (fun v => v.toNat % 2 ^ (8 * n))

/-- Does an access issued before a macro hold its read of a range of its scratchpad (R95, R100, R101, R320)? -/
def macroHeld (s : State) (m : Macro) (a n : Nat) : Bool :=
  heldBy (mkAccess s m.id 7 0 (.loadV 0) [⟨0, a, n⟩]) a (issuedBefore s s.cur m.id)

/-- The uncorrectable error of a macro's own block or index table in LS. -/
def macroLocal (s : State) (a n : Nat) : Option FaultInfo :=
  if badRange s a n then some (mkFault .uncorrected (word (a % 2 ^ 20)) 11) else none

/-- Change the macro at the head of the acting task's queue. -/
def modHead (s : State) (g : Macro → Macro) : State :=
  modTask s (fun t =>
    { t with macros := match t.macros with
      | m :: l => g m :: l
      | [] => [] })

/-! ### MMT (R323) -/

/-- Close the open block first, as an MCFG of another format does; a macro's answer. -/
def macroClose (s : State) : Except MStep State :=
  match closing true s true with
  | .done s1 => .ok s1
  | .trap f => .error (.bad f s)
  | .stall => .error .wait
  | .wait _ => .error .wait

/-- The formats, the column set and X that a record sets. -/
def macroFormats (m : Macro) (a : Arr) : Arr :=
  { a with
    afmt := m.aFmt, bfmt := m.bFmt, cols := bit (m.rw 0) 40, half := bit (m.rw 0) 39, x := setAt a.x m.z m.x }

/-- Begin an MMT whose record and block are well formed. -/
def mmtBegin (s : State) (m : Macro) : MStep :=
  match macroClose s with
  | .error e => e
  | .ok s1 => .go (modHead (modArr s1 (macroFormats m)) (fun m => { m with begun := true }))

/-- The first beat of a K block: the gather, and the push of its rows and of the column exponents. -/
def mmtPush (s : State) (m : Macro) : MStep :=
  let fm := m.aFmt.getD ⟨0, 0⟩
  let b1 := m.bw s 1
  let recd := bits b1 63 59
  let tab := m.block.toNat / 2 ^ 22 * 2 ^ 22 + bits b1 19 0
  if macroHeld s m tab 256 then .wait
  else match macroLocal s tab 256 with
  | some f => .bad f s
  | none =>
    let offs := (List.range 64).map (fun i => readNat s (tab + 4 * i) 4 + (if i < 32 then m.step * gatherRow fm else m.step))
    match macroReads s m recd (gatherAsks (recReg (curTask s) recd) fm offs) with
    | .error e => e
    | .ok v =>
      match macroRead s m recd (bits (m.bw s 2) 19 0 + 256 * m.step) 256 with
      | .error e => e
      | .ok ex =>
        let t := curTask s
        if tileValid t.arr m.z = false then .bad (mkFault .tileInvalid 0 11 m.z) s
        else
          match tilePoison t m.z, macroClose s with
          | some f, _ => .bad f s
          | none, .error e => e
          | none, .ok s1 =>
            let rows := (List.range 32).map (gatherOperands fm v.toNat)
            let d : GaData := { fmt := some fm, a := rows.flatMap Prod.fst, ea := rows.map Prod.snd, poisoned := none }
            let s2 := modTask s1 (fun t =>
              { t with
                gaI := ⟨some fm, recd, offs⟩, gaD := d
                arr := { t.arr with
                  a := padTo 1024 d.a, ea := padTo 32 d.ea, e := unpack 8 256 ex, blk := some ⟨m.z, [], 0⟩ } })
            .go (modHead s2 (fun m => { m with beat := 1 }))

/-- The half-step and the close that end a K block. -/
def mmtEnd (s : State) (m : Macro) : MStep :=
  let half := fun (a : Arr) (b : Block) => (List.range 4).foldl (fun b i => macchBeat a b i) (shiftBeat a b)
  let s1 := modArr s (fun a => { a with blk := a.blk.map (fun b => if bit (m.rw 0) 41 then half a b else b) })
  match macroClose s1 with
  | .error e => e
  | .ok s2 =>
    let s3 := modHead s2 (fun m => { m with step := m.step + 1, beat := 0 })
    if m.step + 1 = bits (m.bw s 0) 63 48 then .done s3 else .go s3

/-- An accumulate beat of a K block, behind its shift; the last one ends the block. -/
def mmtBeat (s : State) (m : Macro) : MStep :=
  match (curTask s).arr.blk with
  | none => .bad (mkFault .tileInvalid 0 11 m.z) s
  | some b =>
    if beatHeld s s.cur then .wait
    else
      match nextSlice m.z s with
      | .error (.trap f) => .bad f s
      | .error (.wait _) => .slice
      | .error _ => .wait
      | .ok (x, s1) =>
        let i := m.beat - 1
        let planes := (m.bFmt.getD ⟨0, 0⟩).k
        let go := fun (a : Arr) =>
          let b1 := if i % 4 = 0 ∧ i ≠ 0 then shiftBeat a b else b
          { a with blk := some (maccBeat a b1 (i % 4) x.toNat) }
        let s2 := modHead (modArr (markMacc s1) go) (fun m => { m with beat := m.beat + 1 })
        if i + 1 = 4 * planes then mmtEnd s2 m else .go s2

/-! ### MATT (R324, R325) -/

/-- Is position `j` valid for a row with an ANC word? -/
def posValid (clen ilen anc j : Nat) : Bool := decide (j < ilen) && (decide (j < clen) || anc.testBit (j - clen))

/-- The empty state of a segment (R118). -/
def emptySeg (gs : Nat) : List Nat := List.replicate (gs - 2) 0 ++ [negInf32, 0]

/-- A score of a query row and a key (R207, R209, R325), both as blocks with their exponents: binary32 bits and flags. -/
def matScore (x : Int) (sc : Nat) (q kv : List (List Int × Int)) : Lane :=
  let r := (q.zip kv).foldl (fun (z : Int × Bool) (y : (List Int × Int) × (List Int × Int)) =>
    let p := (List.zipWith (fun a b => a * b) y.1.1 y.2.1).foldl (· + ·) 0
    let w := accumulate z.1 p (y.1.2 + y.2.2 - x)
    (w.1, z.2 || w.2)) ((0 : Int), false)
  let v := drainLane 10 false r.1 x (some sc)
  (v.1, v.2 ||| (if r.2 then fpsSat else 0))

/-- The blocks of a key or a value of `k` planes: mantissas, and the exponent E − 127 − (k − 1) (R204, R206). -/
def keyBlocks (k nb : Nat) (v : Nat) : List (List Int × Int) :=
  (List.range nb).map (fun b =>
    ((List.range 32).map (fun e => blockMant v k k (32 * b + e)), (byteOf v (4 * k * nb + b) : Int) - 127 - ((k : Int) - 1)))

/-- An exact sum of values. -/
def sumFV : List FV → FV
  | [] => .fin false 0 0
  | x :: l => l.foldl (fun a b => (addFV a b).1) x

/-- Round an exact value to binary32. -/
def roundF32 (x : FV) : Lane := fenc (fspec 10) false x

/-- The exact value of a block element. -/
def blockFV (m : Int) (e : Int) : FV := .fin (decide (m < 0)) m.natAbs e

/-- The partial state of a row over the positions of a page that are valid for it: scores and values (R325). -/
def matPart (gs nb : Nat) (scs : List Nat) (vals : List (List (List Int × Int))) : List Nat × BitVec 3 :=
  match scs with
  | [] => (emptySeg gs, 0)
  | c :: cs =>
    let m := cs.foldl (fun (a : Lane) x =>
      let y := extremeF (fspec 10) true a.1 x
      (y.1, a.2 ||| y.2)) (c, (0 : BitVec 3))
    let ws := scs.map (fun x =>
      let d := subF32 x m.1
      let e := exp2Q d.1
      (e.1, d.2 ||| e.2))
    let wf := ws.map (fun w => fdec (fspec 10) w.1)
    let sm := roundF32 (sumFV wf)
    let o := (List.range (32 * nb)).map (fun d =>
      roundF32 (sumFV (List.zipWith (fun (w : FV) (v : List (List Int × Int)) =>
        let blk := v.getD (d / 32) ([], 0)
        (mulFV w (blockFV (blk.1.getD (d % 32) 0) blk.2)).1) wf vals)))
    (o.map Prod.fst ++ List.replicate (gs - 2 - 32 * nb) 0 ++ [m.1, sm.1],
      m.2 ||| laneFlags ws ||| sm.2 ||| laneFlags o)

/-- Begin an MATT: its scratch tile must be valid; every row's state is empty. -/
def mattBegin (s : State) (m : Macro) : MStep :=
  let t := curTask s
  if tileValid t.arr m.z = false then .bad (mkFault .tileInvalid 0 11 m.z) s
  else
    match tilePoison t m.z with
    | some f => .bad f s
    | none =>
      let rows := bits (m.bw s 1) 58 54 + 1
      .go (modHead s (fun m =>
        { m with begun := true, st := List.replicate rows ((emptySeg m.gs).map (BitVec.ofNat 32)) }))

/-- The output registers of MATT (R308, R324), with each row's segment; the segments behind the last row are free values. -/
def mattOut (s : State) (m : Macro) (i : Nat) : VReg :=
  let segs := ((m.st.drop (i * 2 ^ m.g)).take (2 ^ m.g)).map (fun l => pack 32 (l.map BitVec.toNat))
  let used := 32 * m.gs * segs.length
  toVReg (pack (32 * m.gs) segs + Config.freeNat (s.free + i) <<< used)

/-- Complete an MATT: write its output registers; tile Z becomes zero. -/
def mattEnd (s : State) (m : Macro) : State :=
  let (v0, n) := mattOuts s m
  let s1 := (List.range n).foldl (fun s1 i =>
    landDue s1 s1.cur m.born 11 (.vector (some (v0 + i)) (mattOut s m i)) none) s
  modTask { s1 with free := s1.free + n } (fun t =>
    { t with
      arr := { t.arr with z := setAt t.arr.z m.z [], blk := if t.arr.blk.map Block.tile = some m.z then none else t.arr.blk }
      fps := t.fps ||| m.flags, poison := unpoison (.tile m.z) t.poison })

/-- The ANC words of the rows, where some position stands in the part that they decide. -/
def mattAnc (s : State) (m : Macro) (rows : Nat) : Except MStep Nat :=
  let recd := bits (m.bw s 1) 63 59
  if bits (m.bw s 3) 63 32 ≤ bits (m.bw s 2) 63 32 then .ok 0
  else macroReads s m recd ((List.range rows).map (fun r =>
    { macroAsk (recReg (curTask s) recd) (bits (m.bw s 3) 19 0 + 8 * r) 8 with
      rows := [(8 * r, (bits (m.bw s 3) 19 0 + 8 * r : Nat), 8)] })) |>.map BitVec.toNat

/-- A query row's blocks. -/
def mattRow (s : State) (m : Macro) (r : Nat) : Except MStep (List (List Int × Int)) :=
  let fm := m.aFmt.getD ⟨0, 0⟩
  let recd := bits (m.bw s 1) 63 59
  let n := gatherRow fm
  match macroRead s m recd (bits (m.bw s 1) 19 0 + 32 * m.nb * r) (n * m.nb) with
  | .error e => .error e
  | .ok q =>
    let blocks := fun (side : Nat) =>
      (List.range m.nb).map (fun kb => gatherOperands fm (q >>> (8 * n * kb) % 2 ^ (8 * n) + byteOf side kb <<< 8192) 0)
    if gatherSide fm then (macroRead s m recd (bits (m.bw s 2) 19 0 + m.nb * r) m.nb).map blocks else .ok (blocks 0)

/-- The rows' blocks, in order. -/
def mattRows (s : State) (m : Macro) : List Nat → Except MStep (List (List (List Int × Int)))
  | [] => .ok []
  | r :: rs =>
    match mattRow s m r with
    | .error e => .error e
    | .ok q => (mattRows s m rs).map (fun l => q :: l)

/-- The flat addresses of the keys and the values of some positions of a page, inside the page. -/
def keyAdr (s : State) (m : Macro) (base : Nat) (value : Bool) (p : Nat) : Nat :=
  let b0 := m.bw s 0
  let kvb := 64 * bits b0 31 16
  base + bits b0 63 48 * 16 * kvb + p * kvb / 2 + 64 * bits b0 47 32 + (if value then 8 * kvb else 0)

/-- The answer of a page's step: every row merged with its part of the page. -/
def pageStep (s : State) (m : Macro) (base page p : Nat) (valid : List (List Bool)) (qs : List (List (List Int × Int))) : MStep :=
  let k := (m.bFmt.getD ⟨0, 0⟩).k
  let n := (4 * k + 1) * m.nb
  let used := (List.range 16).filter (fun j => valid.any (fun v => v.getD j false))
  let reads := used.flatMap (fun j => [keyAdr s m base false j, keyAdr s m base true j])
  match reads.find? (fun a => decide (base + page < a + n)) with
  | some a => .bad (mkFault .bounds (word (a % 2 ^ 36)) 11) s
  | none =>
    if reads.any (fun a => spireHeld s a) then .wait
    else
      match reads.findSome? (fun a => firstLost s a n) with
      | some a => .bad (mkFault .uncorrected (word (a % 2 ^ 36)) 11) s
      | none =>
        let keys := (List.range 16).map (fun j =>
          if used.contains j then keyBlocks k m.nb (readNat s (keyAdr s m base false j) n) else [])
        let vals := (List.range 16).map (fun j =>
          if used.contains j then keyBlocks k m.nb (readNat s (keyAdr s m base true j) n) else [])
        let one := fun (st : List (BitVec 32)) (q : List (List Int × Int)) (v : List Bool) =>
          let js := (List.range 16).filter (fun j => v.getD j false)
          let scs := js.map (fun j => matScore m.x (bits (m.rw 1) 63 32) q (keys.getD j []))
          let part := matPart m.gs m.nb (scs.map Prod.fst) (js.map (fun j => vals.getD j []))
          let r := mergeSeg (st.map BitVec.toNat) part.1
          (r.1.map (BitVec.ofNat 32), laneFlags scs ||| part.2 ||| r.2)
        let out := List.zipWith (fun st x => one st x.1 x.2) m.st (qs.zip valid)
        .go (modHead s (fun m =>
          { m with step := p + 1, st := out.map Prod.fst, flags := out.foldl (fun f x => f ||| x.2) m.flags }))

/-- A step of MATT: the next live page, skipped where it holds no valid position; a page on its way from CXL is waited for. -/
def mattStep (s : State) (m : Macro) : MStep :=
  let t := wordTower m.request
  let n := wordReq m.request
  let rows := bits (m.bw s 1) 58 54 + 1
  let clen := bits (m.bw s 2) 63 32
  let ilen := bits (m.bw s 3) 63 32
  if (myAcc s s.cur (curTask s).num).any (fun x => decide (x.id < m.id) && isAccess x) then .wait
  else
    match (livePages s t n).find? (fun p => decide (m.step ≤ p)) with
    | none => .done (mattEnd s m)
    | some p =>
      match mattAnc s m rows with
      | .error e => e
      | .ok anc =>
        let valid := (List.range rows).map (fun r =>
          (List.range 16).map (fun j => posValid clen ilen (anc >>> (64 * r) % 2 ^ 64) (16 * p + j)))
        if !valid.any (fun v => v.any id) then .go (modHead s (fun m => { m with step := p + 1 }))
        else
          let x := pageGet s t n p
          if entTier x = 1 ∨ entPgin x = true then .go (missOn s t n p)
          else
            match mattRows s m (List.range rows) with
            | .error e => e
            | .ok qs =>
              let s1 := pageSet s t n p (setBits x 15 0 (frameLast s))
              pageStep s1 m (pageFlat s t (reqPool s t n) 0 (entBase x)) (poolPage s t (reqPool s t n)) p valid qs

/-! ### MACRO_BEGIN (R215, R320, R326) -/

/-- The macro's next act. -/
def macroStep (s : State) (m : Macro) : MStep :=
  if m.begun then
    match m.kind with
    | .mmt => if m.beat = 0 then mmtPush s m else mmtBeat s m
    | .matt => mattStep s m
  else if macroHeld s m m.block.toNat 64 then .wait
  else
    match macroLocal s m.block.toNat 64 with
    | some f => .bad f s
    | none =>
      match m.kind with
      | .mmt =>
        match (mmtBad s m).find? (fun x => x.1) with
        | some x => .ill x.2.1 x.2.2
        | none => mmtBegin s m
      | .matt =>
        match (mattBad s m).find? (fun x => x.1) with
        | some x => .ill x.2.1 x.2.2
        | none => mattBegin s m

/-- The sequencer step that an error record names: K blocks done, or pages passed. -/
def stepNumber (s : State) (m : Macro) : Nat :=
  match m.kind with
  | .mmt => m.step
  | .matt => ((livePages s (wordTower m.request) (wordReq m.request)).filter (fun p => decide (p < m.step))).length

/-- The error record of R215. -/
def errorRecord (ovr : Bool) (m : Macro) (code badw step fcode : Nat) (fadr : Word) : List Byte :=
  leBytes 8 (2 ^ 63 + (if ovr then 2 ^ 62 else 0) + code * 2 ^ 56 + m.z * 2 ^ 48 + m.gen.toNat * 2 ^ 32) ++
    leBytes 8 m.bundle.toNat ++ leBytes 8 badw ++ leBytes 8 step ++ leBytes 8 fcode ++ leBytes 8 fadr.toNat ++ leBytes 16 0

/-- Write a macro's status. -/
def macroStatus (s : State) (m : Macro) (st : Nat) : State := landDue s s.cur m.born 11 (.scalar m.status (word st)) none

/-- Discard a macro behind one that failed: status 0x80, its tile invalid. -/
def discard (s : State) (m : Macro) : State :=
  macroStatus (modArr s (fun a => { a with valid := setAt a.valid m.z false })) m 0x80

/-- Does an access issued before the error record of a failed macro hold it (R95, R215)? -/
def recordHeld (s : State) (m : Macro) (e : MacroEnd) : Bool :=
  heldBy (recordAccess s.cur (curTask s) m e) (errorArea s.cur (curTask s)) (issuedBefore s s.cur e.id)

/-- The end of a macro that is ill-formed or takes a fault: the queue halts, the error record is stored, its tile becomes
invalid, its status is written, and every macro behind it is discarded (R215, R326). -/
def macroEnd (s : State) (m : Macro) (e : MacroEnd) : State :=
  let k := curTask s
  let area := errorArea s.cur k
  let s1 := storeTrig s area (errorRecord (bit (readNat s area 8) 63) m e.code e.badw (stepNumber s m) e.fcode e.fadr)
  let s2 := modTask s1 (fun t => { t with macros := [], arr := { t.arr with valid := setAt t.arr.valid m.z false } })
  (k.macros.drop 1).foldl discard (macroStatus s2 m e.code)

/-- A macro fails: it ends at once, or waits with its error record for the accesses that R95 orders before it. -/
def macroFail (s : State) (m : Macro) (code badw fcode : Nat) (fadr : Word) : State :=
  let e : MacroEnd := ⟨s.nextId, code, badw, fcode, fadr⟩
  let s1 := modHead { s with nextId := s.nextId + 1 } (fun m => { m with fail := some e })
  if recordHeld s1 m e then s1 else macroEnd s m e

/-- The end of a macro that completes. -/
def macroDone (s : State) (m : Macro) : State := macroStatus (modTask s (fun t => { t with macros := t.macros.drop 1 })) m 0

/-- Run the head macro of the acting core one act further. -/
def runMacro (s : State) : State :=
  match (curTask s).macros with
  | [] => s
  | m :: _ =>
    match m.fail with
    | some e => if recordHeld s m e then s else macroEnd s m e
    | none =>
      match macroStep s m with
      | .go s1 => s1
      | .done s1 => macroDone s1 m
      | .wait => if m.kind = .mmt ∧ m.beat ≠ 0 then markMaccWait s else s
      | .slice => markWaiting s
      | .ill c w => macroFail s m c w 0 0
      | .bad f s1 => macroFail s1 m 5 0 f.code.num f.adr

/-- MACRO_BEGIN (R326): the macro at the head of a core's queue begins, or goes on by a beat or a page. -/
def execMacroBegin (t : BitVec 3) (c : BitVec 6) (s : State) : Host.Outcome State Fault Refusal :=
  if (getCore s (.core t c)).live then .next { runMacro { s with cur := .core t c } with cur := s.cur } else .next s

end Sys2Proof.Machine
end

