-- ==== Sys2Proof/Machine/Traps.lean ====
section
/-!
DEFINITION. The supervisor's trap entry from its queue, held traps, soft errors at rest, and the frame start (spec
17_traps_preemption.md R369, R378, 09_time_and_watch.md R179, R192, R193, 16_scheduler.md R353, R358).
-/
namespace Sys2Proof.Machine

/-! ### Traps of the supervisor core (R369) -/

/-- May a supervisor core take its next entry: out of reset, at a group end, with IE set? (DEDUCED, log 85). -/
def mayTrap (s : State) (t : BitVec 3) : Bool :=
  let w := getTower s t
  !w.sup.inReset && !w.sup.halted && w.sup.sstat.getLsbD 0 && decide ((getCore s (.sup t)).task.group = 0) &&
    (getCore s (.sup t)).task.pend.isNone && !w.evq.isEmpty

/-- SUPERVISOR_TRAP_ENTRY: the head of the queue moves into the syndrome registers. -/
def execSupervisorTrapEntry (t : BitVec 3) (s : State) : Host.Outcome State Fault Refusal :=
  match (getTower s t).evq with
  | [] => .next s
  | e :: l =>
    if mayTrap s t then .next (endWaits (enterTrap (modTower s t (fun w => { w with evq := l })) t e) (.sup t) none) else .next s

/-- HELD_TRAP_RETRY: the trap raised first enters the queue once a place is free. -/
def execHeldTrapRetry (t : BitVec 3) (s : State) : Host.Outcome State Fault Refusal :=
  let w := getTower s t
  match w.heldTraps with
  | [] => .next s
  | e :: l =>
    if trapCount w.evq < 4 ∨ generalFull w.evq = false then
      .next (setTower s t { supEvent s.pkg.cyc w with heldTraps := l, evq := insertTrap e w.evq })
    else .next s

/-! ### Soft errors at rest (R378) -/

/-- Count a corrected error of a home without an address of its own. -/
def countCorrected (s : State) (home : Nat) : State :=
  let old := mapGet (0, 0) s.corr home
  { s with corr := mapPut s.corr home (old.1, old.2 + 1) }

/-- The key of a core's register files, and of its instruction cache, among the homes. -/
def fileHome (a : Agent) (cache : Bool) : Nat := 2 ^ 23 + (if cache then 1024 else 0) + coreKey a

/-- Poison a register or a tile of a task at rest: FADR is zero. -/
def poisonCell (s : State) (t : BitVec 3) (c : BitVec 6) (p : PoisonCell) : State :=
  modTaskOf s (.core t c) (fun k => { k with poison := markPoison (some 0) p k.poison })

/-- SOFT_ERROR_AT_REST (R378): in the snapshot or shadow results of a core, the save slot of a task, a granule, a register or tile, or
a line of an instruction cache. A corrected error of a slot, or of a core's buffer in the shadow-result share (R16),
lies at a free place in it (DESIGN CHOICE, log 111). -/
def execSoftErrorAtRest (place : ErrorPlace) (uncorrectable : Bool) (s : State) : Host.Outcome State Fault Refusal :=
  match place with
  | .vector t c r =>
    .next (if uncorrectable then poisonCell s t c (.vector r.toNat) else countCorrected s (fileHome (.core t c) false))
  | .tile t c z =>
    .next (if uncorrectable then poisonCell s t c (.tile z.toNat) else countCorrected s (fileHome (.core t c) false))
  | .snapshot t c =>
    let x := getCore s (.core t c)
    if uncorrectable then
      if bufferFull x then .next (killTask (killLost s t c.toNat x.task.num) x.task.num) else .next s
    else
      .next (applyError { s with free := s.free + 1 }
        (poolFlat t (0x2800000 + c.toNat * 0x10000 + Config.freeNat s.free % 0x10000)) .corrected)
  | .saved num =>
    match mapGet? s.tasks num.toNat with
    | none => .next s
    | some k =>
      if k.slot.isNone then .next s
      else if uncorrectable then .next (removeSaved (killLost s k.home 0xFF num) k)
      else
        match k.slot.bind (slotPieces s k.home k.ctx) with
        | some ps => .next (applyError { s with free := s.free + 1 } (areaByte ps (Config.freeNat s.free % 0x1D1000)) .corrected)
        | none => .next s
  | .granule a => .next (applyError s a (if uncorrectable then .uncorrectable else .corrected))
  | .cacheLine a n =>
    .next (countCorrected (modCore s a (fun c => { c with ic := if uncorrectable then c.ic.eraseIdx n else c.ic })) (fileHome a true))

/-! ### The frame start (R179) -/

/-- The tower to which a home's corrected errors are reported: its own, or a free one for CXL and host memory (DESIGN CHOICE,
log 47). -/
def homeTower (free key : Nat) : BitVec 3 :=
  if 2 ^ 23 ≤ key then agentTower (keyAgent ((key - 2 ^ 23) % 1024))
  else if 2 ^ 22 ≤ key then BitVec.ofNat 3 (Config.freeNat free)
  else if 2 ^ 21 ≤ key then BitVec.ofNat 3 ((key - 2 ^ 21) / 32)
  else if 2 ^ 20 ≤ key then BitVec.ofNat 3 ((key - 2 ^ 20) / 8)
  else BitVec.ofNat 3 (key / 128)

/-- An address within its own space. -/
def ownAddress (a : Nat) : Nat := if isGs a then a else if isTm a then a % 2 ^ 36 else if isCxl a then a - 2 ^ 44 else a - 2 ^ 53

/-- Report the corrected errors of the frame just ended, one event for each home (R378). -/
def postCorrected (s : State) (frame : Word) : State :=
  s.corr.foldl (fun s x =>
    postEvent { s with free := s.free + 1 } (homeTower s.free x.1) 0x40 (word (ownAddress x.2.1)) frame (min x.2.2 0xFFFF) 0xFF)
    { s with corr := [] }

/-- TRIGS of every entry of a tower becomes 0 (R192). -/
def resetTrigs (s : State) (t : BitVec 3) : State :=
  let b := watchAdr t 0
  { s with
    mem := s.mem.filter (fun (c : Host.Cell) =>
      !(decide (b ≤ c.1) && decide (c.1 < b + 0x40000) && decide ((c.1 - b) % 0x40 / 2 = 0x16))) }

/-- MUTE clears at the second frame start after its trap, where that was taken in hardware mode (R193, R379). -/
def clearMutes (s : State) (t : BitVec 3) : State :=
  let w := getTower s t
  let due := w.mutes.filter (fun m => decide (m.2.toNat + 2 ≤ s.pkg.frame.toNat))
  let s1 := setTower s t { w with mutes := w.mutes.filter (fun m => !due.contains m) }
  due.foldl (fun s m => watchPut s t m.1 0x28 60 60 0) s1

/-- AGE rises until EP stands at 31 (R353). -/
def ageEntry (s : State) (e : REntry) : REntry := if entryPrio s e < 31 then { e with age := e.age + 1 } else e

/-- Age the ready queues of a tower. -/
def ageQueues (s : State) (t : BitVec 3) : State := modTower s t (fun w => { w with ready := w.ready.map (ageEntry s) })

/-- The solo tasks for which a PLACED task may have to go, best-ranked first not assumed: EP of 24 or more, READY for the whole
frame just ended, with no free core that could take them (R358). -/
def urgent (s : State) (t : BitVec 3) (from' : Word) : List REntry :=
  (getTower s t).ready.filter (fun e =>
    !entryGang s e.num && decide (24 ≤ entryPrio s e) && decide (e.entry.toNat ≤ from'.toNat) &&
      (entryTasks s e.num).all (fun k => (List.range 64).all (fun c =>
        !(coreIdle s t (BitVec.ofNat 6 c) && canTake s t (BitVec.ofNat 6 c) k))))

/-- The cores whose task may go for an entry, with its PRIO (R358). -/
def victims (s : State) (t : BitVec 3) (e : REntry) : List (Nat × Nat) :=
  (List.range 64).filterMap (fun c =>
    let x := getCore s (.core t (BitVec.ofNat 6 c))
    let d := x.task.desc.toNat
    if x.live ∧ descSolo d ∧ (busOf s x.task.num).isNone ∧ descPrio d + 8 ≤ entryPrio s e ∧
        (entryTasks s e.num).all (canTake s t (BitVec.ofNat 6 c)) then some (descPrio d, c) else none)

/-- The lowest PRIO, then the lowest core. -/
def lowestVictim (l : List (Nat × Nat)) : Option (Nat × Nat) :=
  l.foldl (fun m x =>
    match m with
    | some y => if x.1 < y.1 then some x else some y
    | none => some x) none

/-- Ask for the pre-emption of a lower-priority solo task; its core is kept for the waiting task (R358) (DEDUCED, log 76). -/
def preemptFor (s : State) (t : BitVec 3) (from' : Word) : State :=
  match bestEntry s ((urgent s t from').filter (fun e => !(victims s t e).isEmpty)) with
  | none => s
  | some e =>
    match lowestVictim (victims s t e) with
    | none => s
    | some (_, c) => modCore s (.core t (BitVec.ofNat 6 c)) (fun x => { x with preempt := true, reserved := some e.num })

/-- The towers, in order. -/
def towerList : List (BitVec 3) := [0, 1, 2, 3, 4, 5, 6, 7]

/-- One action at every tower. -/
def eachTower (s : State) (f : State → BitVec 3 → State) : State := towerList.foldl f s

/-- Has the next frame start come? -/
def frameDue (s : State) : Bool := decide (s.pkg.fstart.toNat + fper s ≤ s.pkg.cyc.toNat)

/-- The frame configurations on record once the next frame has started: one more where another takes effect (R179). -/
def nextRuns (s : State) : List FrmRun :=
  if s.pkg.frmcfg = s.pkg.frmNow then s.pkg.runs
  else ⟨s.pkg.frame + 1, s.pkg.fstart + word (fper s), (ticksTo s 0 (tpf s)).toNat, s.pkg.frmcfg⟩ :: s.pkg.runs

/-- FRAME and FSTART advance; the frame configuration last written takes effect (R179). -/
def advanceFrame (s : State) : State :=
  { s with pkg := { s.pkg with
      frame := s.pkg.frame + 1, fstart := s.pkg.fstart + word (fper s), frmNow := s.pkg.frmcfg, runs := nextRuns s } }

/-- FRAME_START: the five steps of R179 in order, then the corrected errors and the priority pre-emption. -/
def execFrameStart (s : State) : Host.Outcome State Fault Refusal :=
  if frameDue s then
    let from' := s.pkg.fstart
    let frame := s.pkg.frame
    let s1 := eachTower (advanceFrame s) beginStall
    let s2 := eachTower (eachTower s1 postSlips) checkSilence
    let s3 := eachTower (eachTower s2 resetTrigs) clearMutes
    let s4 := postCorrected (eachTower s3 ageQueues) frame
    .next (eachTower s4 (fun s t => preemptFor s t from'))
  else .next s

end Sys2Proof.Machine
end

