-- ==== Sys2Proof/Machine/Issue.lean ====
section
/-!
DEFINITION. The issue of a bundle: fetch, decode faults in their order, operands, effects in ascending slots, and what follows
a bundle: transfers, loops, drains, budgets and group ends (spec 11_bundle_encoding.md R216 to R227, 12_scalar_control.md R251
to R256, 07_execution_model.md R145 to R149, 17_traps_preemption.md R368 to R374).
-/
namespace Sys2Proof.Machine

/-! ### One syllable -/

/-- The row that a decoded syllable stands for, where rows share an opcode: told by a function code or a form bit in a register
(R336, R338, R339, R340). -/
def selectForm (t : Task) : Instr → Instr
  | .sqacc h f => if (scalarIn t f.c).getLsbD 63 then .sqaccAssistComplete h f else .sqacc h f
  | .pfxins h f => if (scalarIn t f.c).getLsbD 63 then .pfxinsAssistComplete h f else .pfxins h f
  | .kvpoolEnable h f =>
    match (scalarIn t f.a).toNat % 16 with
    | 1 => .kvpoolDisable h f
    | 2 => .kvpoolPin h f
    | 3 => .kvpoolUnpin h f
    | 4 => .kvpoolSetent h f
    | 5 => .kvpoolAlloc h f
    | 6 => .kvpoolFree h f
    | _ => .kvpoolEnable h f
  | .stcfgConfigure h f =>
    match (scalarIn t f.a).toNat % 16 with
    | 1 => .stcfgDisable h f
    | 2 => .stcfgEvict h f
    | 3 => .stcfgRestore h f
    | _ => .stcfgConfigure h f
  | i => i

/-- The effect of a syllable in the bundle of the agent `cur`; a step that is no syllable has none here. -/
def runSyllable (i : Instr) (s : State) : Act :=
  match i with
  | .nop _ => .done s
  | .bundleIssue _ => .done s
  | .budgetTrap _ _ => .done s
  | .add p _ f => sylAdd p f s
  | .sub p _ f => sylSub p f s
  | .addi p _ f => sylAddi p f s
  | .mul p _ f => sylMul p f s
  | .mulh p _ f => sylMulh p f s
  | .mulhu p _ f => sylMulhu p f s
  | .div _ f => sylDiv f s
  | .divu _ f => sylDivu f s
  | .rem _ f => sylRem f s
  | .remu _ f => sylRemu f s
  | .addpc p _ f => sylAddpc p f s
  | .and p _ f => sylAnd p f s
  | .or p _ f => sylOr p f s
  | .xor p _ f => sylXor p f s
  | .andn p _ f => sylAndn p f s
  | .andi p _ f => sylAndi p f s
  | .ori p _ f => sylOri p f s
  | .xori p _ f => sylXori p f s
  | .shl p _ f => sylShl p f s
  | .shr p _ f => sylShr p f s
  | .sar p _ f => sylSar p f s
  | .shli p _ f => sylShli p f s
  | .shri p _ f => sylShri p f s
  | .sari p _ f => sylSari p f s
  | .fshl p _ f => sylFshl p f s
  | .fshr p _ f => sylFshr p f s
  | .cmp p _ f => sylCmp p f s
  | .cmpi p _ f => sylCmpi p f s
  | .sel p _ f => sylSel p f s
  | .min p _ f => sylMin p f s
  | .max p _ f => sylMax p f s
  | .minu p _ f => sylMinu p f s
  | .maxu p _ f => sylMaxu p f s
  | .bfx p _ f => sylBfx p f s
  | .bfxu p _ f => sylBfxu p f s
  | .bfi p _ f => sylBfi p f s
  | .clz p _ f => sylClz p f s
  | .ctz p _ f => sylCtz p f s
  | .popc p _ f => sylPopc p f s
  | .brev p _ f => sylBrev p f s
  | .bswap p _ f => sylBswap p f s
  | .li p _ f => sylLi p f s
  | .lih p _ f => sylLih p f s
  | .phash _ f => sylPhash f s
  | .pbr _ f => sylPbr f s
  | .pbrr _ f => sylPbrr f s
  | .xfer _ f => sylXfer f s
  | .xferl _ f => sylXferl f s
  | .loop _ f => sylLoop f s
  | .loopi _ f => sylLoopi f s
  | .breakLoop _ f => sylBreakLoop f s
  | .vany _ f => sylVany f s
  | .vall _ f => sylVall f s
  | .fop _ f => sylFop f s
  | .wfe _ f => sylWfe f s
  | .sev _ f => sylSev f s
  | .tend _ f => sylTend f s
  | .amov _ f => sylAmov f s
  | .aadd _ f => sylAadd f s
  | .aaddi _ f => sylAaddi f s
  | .acfg _ f => sylAcfg f s
  | .aind _ f => sylAind f s
  | .arun _ f => sylArun f s
  | .astop _ f => sylAstop f s
  | .generatorStep _ => .done s
  | .vadd _ f => sylVadd f s
  | .vsub _ f => sylVsub f s
  | .vmul _ f => sylVmul f s
  | .vfma _ f => sylVfma f s
  | .vmin _ f => sylVmin f s
  | .vmax _ f => sylVmax f s
  | .vabs _ f => sylVabs f s
  | .vneg _ f => sylVneg f s
  | .vadds _ f => sylVadds f s
  | .vsubs _ f => sylVsubs f s
  | .vmulh _ f => sylVmulh f s
  | .vand _ f => sylVand f s
  | .vor _ f => sylVor f s
  | .vxor _ f => sylVxor f s
  | .vandn _ f => sylVandn f s
  | .vshl _ f => sylVshl f s
  | .vshr _ f => sylVshr f s
  | .vsar _ f => sylVsar f s
  | .vpopc _ f => sylVpopc f s
  | .vcvt _ f => sylVcvt f s
  | .vpack _ f => sylVpack f s
  | .vunpk _ f => sylVunpk f s
  | .vrsum _ f => sylVrsum f s
  | .vrmax _ f => sylVrmax f s
  | .vrmin _ f => sylVrmin f s
  | .vrand _ f => sylVrand f s
  | .vror _ f => sylVror f s
  | .vcmp _ f => sylVcmp f s
  | .vqand _ f => sylVqand f s
  | .vqor _ f => sylVqor f s
  | .vqnot _ f => sylVqnot f s
  | .vsel _ f => sylVsel f s
  | .vperm _ f => sylVperm f s
  | .vbcast _ f => sylVbcast f s
  | .vbcastLn _ f => sylVbcastLn f s
  | .vmov _ f => sylVmov f s
  | .vins _ f => sylVins f s
  | .vext _ f => sylVext f s
  | .vzps _ f => sylVzps f s
  | .vplx _ f => sylVplx f s
  | .vpli _ f => sylVpli f s
  | .vexp2 _ f => sylVexp2 f s
  | .vrcp _ f => sylVrcp f s
  | .vmrg _ f => sylVmrg f s
  | .gidx _ f => sylGidx f s
  | .gath _ f => sylGath f s
  | .mcfg _ f => sylMcfg f s
  | .busEpochStart _ _ _ => .done s
  | .mzero _ f => sylMzero f s
  | .mpush _ f => sylMpush f s
  | .mshf _ f => sylMshf f s
  | .macc _ f => sylMacc f s
  | .macch _ f => sylMacch f s
  | .mdrn _ f => sylMdrn f s
  | .grantWindow _ _ _ => .done s
  | .ld h f => sylLd h f s
  | .ldz h f => sylLdz h f s
  | .st h f => sylSt h f s
  | .vld h f => sylVld h f s
  | .vst h f => sylVst h f s
  | .tld h f => sylTld h f s
  | .tst h f => sylTst h f s
  | .amo h f => sylAmo h f s
  | .cas h f => sylCas h f s
  | .mark _ f => sylMark f s
  | .gld h f => sylGld h f s
  | .gldz h f => sylGldz h f s
  | .gst h f => sylGst h f s
  | .gvld h f => sylGvld h f s
  | .gvst h f => sylGvst h f s
  | .gtld h f => sylGtld h f s
  | .gtst h f => sylGtst h f s
  | .gamo h f => sylGamo h f s
  | .gcas h f => sylGcas h f s
  | .gmark _ f => sylGmark f s
  | .wld h f => sylWld h f s
  | .wldz h f => sylWldz h f s
  | .wst h f => sylWst h f s
  | .wvld h f => sylWvld h f s
  | .wvst h f => sylWvst h f s
  | .wtld h f => sylWtld h f s
  | .wtst h f => sylWtst h f s
  | .wamo h f => sylWamo h f s
  | .wcas h f => sylWcas h f s
  | .wmark _ f => sylWmark f s
  | .bld _ f => sylBld f s
  | .xlate _ f => sylXlate f s
  | .fence _ f => sylFence f s
  | .cpy _ f => sylCpy f s
  | .cpyt _ f => sylCpyt f s
  | .copyIssue _ => .done s
  | .chunkLand _ _ _ => .done s
  | .waitc _ f => sylWaitc f s
  | .pxfer _ f => sylPxfer f s
  | .peerChunkReceive _ _ _ _ => .done s
  | .sqopen _ f => sylSqopen f s
  | .sqclose _ f => sylSqclose f s
  | .sqnode _ f => sylSqnode f s
  | .sqchk _ f => sylSqchk f s
  | .sqacc _ f => sylSqacc f s
  | .sqaccAssistComplete _ f => sylSqaccAssistComplete f s
  | .sqsave _ f => sylSqsave f s
  | .sqrst _ f => sylSqrst f s
  | .kvgrow _ f => sylKvgrow f s
  | .kvcommit _ f => sylKvcommit f s
  | .kvroll _ f => sylKvroll f s
  | .kvexport _ f => sylKvexport f s
  | .kvpoolEnable _ f => sylKvpoolEnable f s
  | .kvpoolDisable _ f => sylKvpoolDisable f s
  | .kvpoolPin _ f => sylKvpoolPin f s
  | .kvpoolUnpin _ f => sylKvpoolUnpin f s
  | .kvpoolSetent _ f => sylKvpoolSetent f s
  | .kvpoolAlloc _ f => sylKvpoolAlloc f s
  | .kvpoolFree _ f => sylKvpoolFree f s
  | .pfxlook _ f => sylPfxlook f s
  | .pfxins _ f => sylPfxins f s
  | .pfxinsAssistComplete _ f => sylPfxinsAssistComplete f s
  | .pfxpin _ f => sylPfxpin f s
  | .stcfgConfigure _ f => sylStcfgConfigure f s
  | .stcfgDisable _ f => sylStcfgDisable f s
  | .stcfgEvict _ f => sylStcfgEvict f s
  | .stcfgRestore _ f => sylStcfgRestore f s
  | .spawn _ f => sylSpawn f s
  | .gbar _ f => sylGbar f s
  | .watch _ f => sylWatch f s
  | .unwatch _ f => sylUnwatch f s
  | .ttrel _ f => sylTtrel f s
  | .rdtime _ f => sylRdtime f s
  | .waittCyc _ f => sylWaittCyc f s
  | .waittTick _ f => sylWaittTick f s
  | .budset _ f => sylBudset f s
  | .vopen _ f => sylVopen f s
  | .vseal _ f => sylVseal f s
  | .vsealPerform _ => .done s
  | .vhold _ f => sylVhold f s
  | .vrel _ f => sylVrel f s
  | .mfsr _ f => sylMfsr f s
  | .mtsr _ f => sylMtsr f s
  | .svc _ f => sylSvc f s
  | .eret _ f => sylEret f s
  | .trap _ f => sylTrap f s
  | .csld _ f => sylCsld f s
  | .icinv _ f => sylIcinv f s
  | .halt _ f => sylHalt f s
  | .mmt _ f => sylMmt f s
  | .matt _ f => sylMatt f s
  | .macroBegin _ _ => .done s
  | .taskLaunch _ _ _ => .done s
  | .pop _ _ _ _ _ => .done s
  | .gangBackoffExpiry _ _ => .done s
  | .drainClaimCommit _ _ => .done s
  | .preemption _ _ => .done s
  | .frameStart => .done s
  | .releaseTick _ => .done s
  | .streamCheckPoint _ _ => .done s
  | .streamTick _ _ => .done s
  | .watchTrigger _ => .done s
  | .ethFrameReceive _ _ _ => .done s
  | .ptpMessage _ _ _ _ _ => .done s
  | .streamEviction _ _ => .done s
  | .streamRestore _ _ => .done s
  | .pageInSwitch _ => .done s
  | .evictionRetry _ => .done s
  | .evictionSwitch _ => .done s
  | .backgroundZeroing _ => .done s
  | .spireErrorThreshold _ _ _ => .done s
  | .spireLaneFail _ _ => .done s
  | .sprqDecide _ _ => .done s
  | .sprqSpare _ _ => .done s
  | .sprqReroute _ _ => .done s
  | .spireRetirement _ _ => .done s
  | .bufferMigration _ _ => .done s
  | .sensorSample _ _ _ => .done s
  | .thermalStepTimer _ => .done s
  | .thermalReleaseTimer _ => .done s
  | .powerThrottleAdjust _ _ => .done s
  | .softErrorAtRest _ _ => .done s
  | .supervisorTrapEntry _ => .done s
  | .heldTrapRetry _ => .done s
  | .cfsynResume _ _ => .done s
  | .cfsynSuspend _ _ => .done s
  | .tfgoFill _ _ => .done s
  | .tfgoFail _ _ => .done s
  | .tkillTask _ _ => .done s
  | .tkillContextTower _ _ => .done s
  | .tkillContextPackage _ _ => .done s
  | .sevw _ _ => .done s
  | .svcr _ _ => .done s
  | .otw _ _ => .done s
  | .otwBusyClear _ => .done s
  | .xinvPage _ _ => .done s
  | .xinvContext _ _ => .done s
  | .xinvAll _ _ => .done s
  | .xinvDone => .done s
  | .vbdEnable _ _ _ _ => .done s
  | .vbdDisable _ _ _ _ => .done s
  | .cfmWrite _ _ _ => .done s
  | .budWrite _ _ _ => .done s
  | .frmcfgWrite _ => .done s
  | .tofsWrite _ => .done s
  | .hcwWrite _ _ => .done s
  | .registerWrite _ _ _ => .done s
  | .hostPostedWrite _ _ _ => .done s
  | .hostRead _ _ _ => .done s
  | .hostAtomicRequest _ _ => .done s
  | .platctlWrite _ => .done s
  | .resumeWrite _ => .done s
  | .controlWindowWrite _ _ => .done s
  | .linkTraining _ _ _ => .done s
  | .packageReset => .done s
  | .pcieLinkTrain => .done s
  | .aknelVerify _ _ => .done s
  | .dramSpireTraining _ _ => .done s
  | .malaskunStart _ _ => .done s
  | .attestationRequest _ => .done s
  | .accessPerformedAtHome _ _ _ => .done s
  | .ptpMasterLost => .done s

/-! ### Decode faults (R227) -/

/-- The acting syllables of a bundle in ascending slots, or the decode fault of the first that has one. A syllable whose function is
still to be told holds the bundle, alone, before a higher slot is looked at. -/
def actingSyllables (stop : Bool) (s : State) : List (Nat × Word) → Except FaultInfo (List Instr)
  | [] => .ok []
  | (n, w) :: l =>
    if predicateHolds (curTask s) (Head.ofWord w) then
      if hasFeature s (slotFeature n) then
        match decodeSyllable n w with
        | none => .error (bundleFault s .illegalOpcode n)
        | some i =>
          match decodeFault (some stop) s i with
          | some f => .error f
          | none => if funPending s i then .ok [i] else (actingSyllables stop s l).map (fun is => i :: is)
      else .error (bundleFault s .featureAbsent n)
    else actingSyllables stop s l

/-- The decode faults before the syllables: a group of 64 bundles already, a template word that is refused, a delay bundle that
ends its group before the last (R145, R218, R252). -/
def splitIssue (s : State) (bs : List Byte) : Except FaultInfo Bundle :=
  let t := curTask s
  if 64 ≤ t.group then .error (bundleFault s .groupOverlong 0x0F)
  else
    match splitBundle bs with
    | .error _ => .error (bundleFault s .illegalBundle 0x0F)
    | .ok (b, _) =>
      match t.pend with
      | some p => if 1 < p.left ∧ b.stop = true then .error (bundleFault s .illegalBundle 0x0F) else .ok b
      | none => .ok b

/-! ### Effects -/

/-- Is an instruction TEND, which acts after the rest of its bundle? -/
def isTend : Instr → Bool
  | .tend _ _ => true
  | _ => false

/-- Is an instruction ARUN, whose run begins with a step in its own bundle (R291)? -/
def isArun : Instr → Bool
  | .arun _ _ => true
  | _ => false

/-- Run syllables in order; the first fault or stall ends them. -/
def runAll : List Instr → State → Act
  | [], s => .done s
  | i :: l, s => (runSyllable i s).bind (runAll l)

/-- Run the syllables of a bundle with an ARUN: the first step of its run comes with it, before the memory syllables (R291, R292). -/
def runArun : List Instr → State → Act
  | [], s => .done s
  | i :: l, s =>
    (runSyllable i s).bind (fun s1 =>
      if isArun i then (if genHeld s1 then .stall else runAll l (genStep s1)) else runArun l s1)

/-- The effects of a bundle's acting syllables but TEND, with the generator's step. -/
def bundleEffects (is : List Instr) (s : State) : Act :=
  match is.findSome? (operandHold s) with
  | some a => a
  | none =>
    let rows := (is.filter (fun i => !isTend i)).map (selectForm (curTask s))
    if is.any isArun then runArun rows s
    else if genHeld s then .stall
    else runAll rows (genStep s)

/-! ### After a bundle -/

/-- Charge a bundle to the task and to its context on the tower (R148); a supervisor core is not charged. -/
def chargeBundle (s : State) : State :=
  match s.cur with
  | .core t _ =>
    let k := curTask s
    let s1 := modTower s t (fun w => { w with bud := mapPut w.bud k.ctx.toNat (mapGet 0 w.bud k.ctx.toNat - 1) })
    modTask s1 (fun k => { k with tbud := if k.counted then k.tbud - 1 else k.tbud })
  | .sup _ => s

/-- The number of the innermost active loop that ends at an address. -/
def innermostAt (pc : Word) (l : List LoopSt) : Option Nat :=
  (l.zipIdx.foldl (fun (m : Option (Nat × Nat)) x =>
    if x.1.active ∧ x.1.stop = pc then
      match m with
      | some y => if y.1 < x.1.order then some (x.1.order, x.2) else some y
      | none => some (x.1.order, x.2)
    else m) none).map Prod.snd

/-- The end matching of R256, for at most `n` loops: where the bundle goes back to, if it does, and the loops afterwards
(DEDUCED, log 83). -/
def endLoops : Nat → Word → List LoopSt → Option Word × List LoopSt
  | 0, _, l => (none, l)
  | n + 1, pc, l =>
    match innermostAt pc l with
    | none => (none, l)
    | some i =>
      let x := l.getD i LoopSt.zero
      if 1 < x.count.toNat then (some x.start, setAt l i { x with count := x.count - 1 })
      else endLoops n pc (setAt l i LoopSt.zero)

/-- The link register of a transfer whose link could not be known before (DESIGN CHOICE, log 19): written before the target's
bundle reads. -/
def linkDue (k : Task) (p : Transfer) (next : Word) : Task :=
  match p.link with
  | some r => { k with due := k.due ++ [⟨k.issued, k.issued, 0, .scalar r next, none, 0, none, none⟩] }
  | none => k

/-- Go to a transfer's target, with its drain (R251, R253). -/
def takeTransfer (k : Task) (p : Transfer) (next : Word) : Task :=
  let k1 := { linkDue k p next with pend := none, pc := p.target }
  if p.drain then drainAll k1 else k1

/-- Where the task goes after a bundle at `own`: `was` is the transfer pending before the bundle, `next` the address that
follows it. The bundle counts as issued; an ERET, which has moved the pc, goes on where it has put it, whatever loop its bundle ends
(R145, R237, R251 to R256, R349). -/
def flowAfter (b : Bundle) (was : Option Transfer) (own next : Word) (k0 : Task) : Task :=
  let k := { k0 with issued := k0.issued + 1, group := k0.group + 1, skip := none }
  match was with
  | some p => if p.left ≤ 1 then takeTransfer k p next else { k with pend := some { p with left := p.left - 1 }, pc := next }
  | none =>
    match k.pend with
    | some p =>
      if p.left = 0 then takeTransfer k { p with drain := b.drain } next
      else { k with pend := some { p with drain := b.drain }, pc := next }
    | none =>
      let r := endLoops 4 own k.loops
      { k with loops := r.2, pc := if k.pc = own then r.1.getD (k0.skip.getD next) else k0.skip.getD next }

/-- The end of an issue group: the rings empty, a kill is taken, a budget that ran out is noted (R145, R146, R149, R373). A result
that falls at this very point enters the ring of the next group (DESIGN CHOICE, log 140). -/
def endGroup (s : State) : State :=
  let s1 := modTask s (fun k => { endRings k with group := 0, drainTo := k.drainTo.map (fun _ => true) })
  match s.cur with
  | .core t c =>
    if (getCore s1 s.cur).kill then endPlaced s1 t c
    else modTask s1 (fun k => { k with trapDue := budgetCause s1 t k })
  | .sup _ => s1

/-- What follows the effects of a bundle of `len` bytes at `own` (DEDUCED, log 82). -/
def finishBundle (b : Bundle) (len : Nat) (own : Word) (was : Option Transfer) (tend : Bool) (s : State) : State :=
  let s1 := chargeBundle s
  let s2 := modTask s1 (flowAfter b was own (seqAdr own len))
  if tend then
    match s2.cur with
    | .core t c => endPlaced s2 t c
    | .sup _ => s2
  else if b.stop then endGroup s2
  else s2

/-! ### The bundle -/

/-- Is an instruction an MACC? -/
def isMacc : Instr → Bool
  | .macc _ _ => true
  | _ => false

/-- A bundle has not issued: the results that fell for it are still to be written, so that one that lands meanwhile takes its place
in their order (R239), and an MACC among its syllables waits to issue (R60). `k0` is the task before they were written. -/
def unissued (k0 : Task) (is : List Instr) (s : State) : State :=
  let s1 := if is.any isMacc then markMaccWait s else s
  modTask s1 (fun k => { k0 with waitTok := k.waitTok, tokFail := k.tokFail, verWait := k.verWait })

/-- A bundle faults: the results that fell for it are among those still due, which the freeze latches (R372). -/
def faultAt (k0 : Task) (s : State) (f : FaultInfo) : State := takeFault (unissued k0 [] s) s.cur f

/-- Issue a bundle of known bytes on the agent `cur`, whose due results have been written; `k0` is its task before that. A fault or
a stall leaves nothing of the bundle (R33, R368); a syllable that would overfill the result buffers waits while the results come due
(R374; DEDUCED, log 21). -/
def issueBytes (k0 : Task) (s : State) (bs : List Byte) : State :=
  match splitIssue s bs with
  | .error f => faultAt k0 s f
  | .ok b =>
    match actingSyllables b.stop s b.syls with
    | .error f => faultAt k0 s f
    | .ok is =>
      match bundleEffects is s with
      | .done s1 =>
        if dueOver (curTask s1) then modTask (unissued k0 is s) advanceDue
        else finishBundle b (4 + 8 * b.syls.length) (curTask s).pc (curTask s).pend (is.any isTend) s1
      | .trap f => faultAt k0 s f
      | .stall => unissued k0 is s
      | .wait .results => markWait (unissued k0 is s) .results
      | .wait w => unissued k0 is (markWait s w)

/-- May a member of a gang issue its next bundle: inside its group, which it ends before its own pre-emption (R39), or with every
member that has not ended PLACED (R157)? -/
def gangPlaced (s : State) (k : Task) : Bool :=
  if k.group ≠ 0 then true
  else match k.gang with
  | [] => true
  | _ :: _ =>
    match gangOf s k.num with
    | none => true
    | some g => g.members.zipIdx.all (fun x => g.ended.contains x.2 || (findPlaced s x.1).isSome)

/-- Is a core at a group boundary that something must be taken at first: the budget trap, a pre-emption, an answer to SVC
(R149, R349, R373)? -/
def heldAtEnd (x : CoreSt) : Bool :=
  decide (x.task.group = 0) && (decide (x.task.trapDue ≠ 0) || x.preempt || x.task.svcReg.isSome)

/-- Is an MLS access or gather of a core's task still being performed, so that the core issues nothing (R33)? -/
def mlsBusy (s : State) (a : Agent) : Bool :=
  s.acc.any (fun x => decide (x.who = a) && decide (x.slot = 7) && isAccess x)

/-- May the next bundle of an agent issue in this cycle? -/
def issueOpen (s : State) (a : Agent) : Bool :=
  let x := getCore s a
  match a with
  | .core _ _ =>
    x.live && !x.frozen && decide (x.thawed ≠ some s.pkg.cyc) && !heldAtEnd x && gangPlaced s x.task && !mlsBusy s a && !withheld s a
  | .sup t =>
    let w := (getTower s t).sup
    !w.inReset && !w.halted && !mayTrap s t

/-- Fetch the next bundle of the agent `cur` and issue it. A store that was lost in flight faults in its place (R65). -/
def issueNext (s : State) : State :=
  let k0 := curTask s
  let s1 := modTask s commitDue
  match k0.lostStore, fetchBundle s1 s1.cur (curTask s1).pc with
  | some x, _ => faultAt { k0 with lostStore := none } s1 (mkFault .uncorrected x.1 x.2)
  | none, (.ok bs, s2) => issueBytes k0 s2 bs
  | none, (.error a, s2) => faultAt k0 s2 (fetchFault a 0x0F)
  | none, (.lost a, s2) => faultAt k0 s2 (mkFault .uncorrected a 0x0F)
  | none, (.walk va, s2) => unissued k0 [] (askWalk s2 s2.cur (fetchCtx s2 s2.cur) va true)
  | none, (.held, s2) => unissued k0 [] s2

/-- BUNDLE_ISSUE. -/
def execBundleIssue (a : Agent) (s : State) : Host.Outcome State Fault Refusal :=
  .next (if issueOpen s a then issueNext { s with cur := a } else s)

/-- NOP: the empty bundle of the agent `cur` issues (R217). -/
def execNop (stop : Bool) (s : State) : Host.Outcome State Fault Refusal :=
  .next (issueBytes (curTask s) s (encodeBundle ⟨stop, false, []⟩))

end Sys2Proof.Machine
end

