-- ==== Sys2Proof/Machine/Thermal.lean ====
section
/-!
DEFINITION. The PTP time unit, temperature and power (spec 09_time_and_watch.md R178, 18_links_host.md R383, 16_scheduler.md R361
to R363, 19_platform.md R395, R396).
-/
namespace Sys2Proof.Machine

/-! ### PTP (R178, R383) -/

/-- The offset to the master that a set of timestamps gives: Sync sent and received, Delay_Req sent and received
(DEDUCED, log 75). -/
def ptpOffset (t1 t2 t3 t4 : Word) : Int := ((t2 - t1).toInt - (t4 - t3).toInt) / 2

/-- An offset as TSTAT holds it: signed, saturating at 32 bits. -/
def satOffset (x : Int) : BitVec 32 := BitVec.ofInt 32 (max (-(2 ^ 31)) (min (2 ^ 31 - 1) x))

/-- A trim within 200,000 parts per 10^9, made of the servo's free choice (R177; DESIGN CHOICE, log 12). -/
def trimOf (x : BitVec 32) : Word := BitVec.setWidth 64 (BitVec.ofInt 32 ((x.toNat % 400001 : Nat) - 200000))

/-- The servo in hardware mode: it slews TRATE within 1 ms, and writes TOFS once above. -/
def servo (s : State) (x : Int) : State :=
  if x.natAbs ≤ 1000000 then { s with pkg := { s.pkg with trate := trimOf (Config.servoTrim s.free) }, free := s.free + 1 }
  else writeTofs s (s.pkg.tofs - BitVec.ofInt 64 x)

/-- Does the PTPCFG entry of a port disable it (R383)? The spec does not lay the entry out (DESIGN CHOICE, log 118). -/
def ptpOff (s : State) (port : BitVec 1) : Bool :=
  Config.ptpDisabled ((List.range 8).map (fun i => word (windowReg s (0x4000 + 64 * port.toNat + 8 * i))))

/-- PTP_MESSAGE: a set of timestamps measured against the master on a port; a disabled port measures none (R383). -/
def execPtpMessage (port : BitVec 1) (t1 t2 t3 t4 : BitVec 64) (s : State) : Host.Outcome State Fault Refusal :=
  if ptpOff s port then .next s
  else
  let x := ptpOffset t1 t2 t3 t4
  let good := if x.natAbs ≤ 1000 then min (s.pkg.good + 1) 16 else 0
  let s1 := { s with pkg := { s.pkg with port := port, offset := satOffset x, good := good, lock := decide (good = 16) } }
  if (getTower s 0).fmr.getLsbD 6 then
    .next (postEvent (postEvent s1 0 0x4F t1 t2 port.toNat 0xFF) 0 0x4F t3 t4 (0x100 + port.toNat) 0xFF)
  else .next (servo s1 x)

/-- PTP_MASTER_LOST: LOCK falls; PORT and OFFSET stay. -/
def execPtpMasterLost (s : State) : Host.Outcome State Fault Refusal := .next { s with pkg := { s.pkg with lock := false, good := 0 } }

/-! ### Temperature (R362, R396). Readings count 1/16 °C; 2 ms are 3,200,000 counts of CYC, 10 ms are 16,000,000. -/

/-- The warning limit of a sensor. -/
def warnLimit (i : Nat) : Nat := if i < 2 then 95 * 16 else 85 * 16
/-- The release limit. -/
def releaseLimit (i : Nat) : Nat := if i < 2 then 85 * 16 else 78 * 16
/-- The critical limit. -/
def criticalLimit (i : Nat) : Nat := if i < 2 then 105 * 16 else 95 * 16

/-- A sensor's reading. -/
def reading (h : Thermal) (i : Nat) : Nat := (h.reading.getD i 0).toNat

/-- Is some sensor of a tower at or above its warning limit? -/
def isHot (h : Thermal) : Bool := (List.range 4).any (fun i => decide (warnLimit i ≤ reading h i))
/-- Is some sensor at or above its critical limit? -/
def isCritical (h : Thermal) : Bool := (List.range 4).any (fun i => decide (criticalLimit i ≤ reading h i))
/-- Is every sensor below its release limit? -/
def isCool (h : Thermal) : Bool := (List.range 4).all (fun i => decide (reading h i < releaseLimit i))

/-- Change the thermal unit of a tower. -/
def modThermal (s : State) (t : BitVec 3) (f : Thermal → Thermal) : State := modTower s t (fun w => { w with thermal := f w.thermal })

/-- Set the clock step; every change is reported. -/
def setStep (s : State) (t : BitVec 3) (n : BitVec 3) : State :=
  if (getTower s t).thermal.step = n then s
  else postEvent (modThermal s t (fun h => { h with step := n })) t 0x50 0 0 n.toNat 0xFF

/-- One clock step down in speed, at most to step 4. -/
def slower (s : State) (t : BitVec 3) : State :=
  let n := (getTower s t).thermal.step
  if n.toNat < 4 then setStep s t (n + 1) else s

/-- The timers after a sample: the one of the warning runs while the tower is hot, the one of the release while it is cool and not
at step 0. -/
def timers (s : State) (h : Thermal) : Thermal :=
  { h with
    warnAt := if isHot h then h.warnAt.orElse (fun _ => some (s.pkg.cyc + 3200000)) else none
    coolAt := if isCool h ∧ h.step ≠ 0 then h.coolAt.orElse (fun _ => some (s.pkg.cyc + 16000000)) else none }

/-- SENSOR_SAMPLE: what the crossing of a limit by the sensor does at once. A sample that crosses both limits has the critical
action alone and one THERMAL trap, in either mode (R396) (DEDUCED, log 74). A tower held in reset only takes the reading (R394). -/
def execSensorSample (t : BitVec 3) (sensor : BitVec 2) (value : BitVec 16) (s : State) : Host.Outcome State Fault Refusal :=
  let old := (getTower s t).thermal
  let new := { old with reading := setAt old.reading sensor.toNat value }
  let s1 := modThermal s t (fun _ => new)
  let i := sensor.toNat
  let warns := decide (reading old i < warnLimit i) && decide (warnLimit i ≤ reading new i)
  let crosses := decide (reading old i < criticalLimit i) && decide (criticalLimit i ≤ reading new i)
  let assisted := (getTower s t).fmr.getLsbD 8
  let s2 := if warns ∧ (assisted ∨ crosses) then postTrap s1 t .thermal (value.setWidth 64) 0 i else s1
  let s3 := if isCritical new then setStep s2 t 4 else if warns ∧ !assisted then slower s2 t else s2
  .next (if (getTower s t).inReset then s1 else modThermal s3 t (timers s3))

/-- Has a moment come? -/
def momentCome (s : State) (x : Option Word) : Bool := x.any (fun y => decide (y.toNat ≤ s.pkg.cyc.toNat))

/-- THERMAL_STEP_TIMER: still hot 2 ms later, or at the deadline of assisted mode. -/
def execThermalStepTimer (t : BitVec 3) (s : State) : Host.Outcome State Fault Refusal :=
  if momentCome s (getTower s t).thermal.warnAt then
    .next (modThermal (slower s t) t (fun h => { h with warnAt := h.warnAt.map (fun x => x + 3200000) }))
  else .next s

/-- THERMAL_RELEASE_TIMER: cool for 10 ms. -/
def execThermalReleaseTimer (t : BitVec 3) (s : State) : Host.Outcome State Fault Refusal :=
  let h := (getTower s t).thermal
  if momentCome s h.coolAt then
    let s1 := setStep s t (h.step - 1)
    .next (modThermal s1 t (fun h => { h with coolAt := if h.step = 0 then none else h.coolAt.map (fun x => x + 16000000) }))
  else .next s

/-! ### Power (R363, R395) -/

/-- The package limit in milliwatts: 1,400 W on the G8M; on the G8P what its carrier declared at the last reset, never more. -/
def packageLimit (s : State) : Nat := if Config.isG8P then min (Config.carrierLimit s.pkg.resets) 1400000 else 1400000

/-- A tower's share of the package limit, in milliwatts. -/
def powerShare (s : State) : Nat := (packageLimit s - 80000) / 8

/-- A new count of withheld cycles, up or down from an old one by the dispatcher's free choice (DESIGN CHOICE, log 11). -/
def newThrottle (hot : Bool) (g x : Nat) : Nat :=
  if hot then (if g < 15 then g + 1 + x % (15 - g) else 15) else if 0 < g then g - 1 - x % g else 0

/-- POWER_THROTTLE_ADJUST: each compute core, or each unit of cores, withholds more or fewer cycles. -/
def execPowerThrottleAdjust (t : BitVec 3) (milliwatts : Nat) (s : State) : Host.Outcome State Fault Refusal :=
  let hot := decide (powerShare s < milliwatts)
  .next ((List.range 64).foldl (fun s1 c =>
    let a := Agent.core t (BitVec.ofNat 6 c)
    let k := throttleLead s a
    modCore s1 a (fun x =>
      { x with throttle := newThrottle hot (getCore s (keyAgent k)).throttle (Config.freeNat (s.free + k)) }))
    { s with free := s.free + 512 })

end Sys2Proof.Machine
end

