-- ==== Sys2Proof/Machine/Platform.lean ====
section
/-!
DEFINITION. The host's accesses, the control window, the Clozer links, and bring-up with the root of trust (spec 18_links_host.md
R380, R381, R384, R387, 05_consistency.md R107, R112, 19_platform.md R391 to R394).
-/
namespace Sys2Proof.Machine

/-! ### The control window (R381) -/

/-- Is the configuration fixed? -/
def windowLocked (s : State) : Bool := bit (windowReg s 0) 63

/-- Does an offset hold a table or register that LOCK fixes? -/
def windowTable (off : Nat) : Bool :=
  decide (off = 0x100) || (decide (0x200 ≤ off) && decide (off < 0x220)) || (decide (0x1000 ≤ off) && decide (off < 0x1080)) ||
    (decide (0x2000 ≤ off) && decide (off < 0x3000)) || (decide (0x3000 ≤ off) && decide (off < 0x3400)) ||
    (decide (0x4000 ≤ off) && decide (off < 0x4080))

/-- Set a word of the window. -/
def putWindow (s : State) (off : Nat) (v : Word) : State := { s with pkg := { s.pkg with window := mapPut s.pkg.window off v } }

/-- The bytes of the window that M2 measures (R392). -/
def windowBytes (s : State) : List Byte := (List.range 2528).flatMap (fun i => leBytes 8 (windowReg s (0x100 + 8 * i)))

/-- A measurement: the 32-byte SHAKE256 digest of some bytes (R392). -/
def digest (l : List Byte) : BitVec 256 := BitVec.ofNat 256 (leNat (shake256 l 32))

/-- A write of PLATCTL: ignored once locked; what it writes to the reserved field is ignored and the field reads zero, while LOCK
and CHIPID take their values (R7, R381). Setting LOCK takes M2 and ends step 5 (R392, R394). -/
def writePlatctl (s : State) (v : Word) : State :=
  if windowLocked s then s
  else
    let s1 := putWindow s 0 (v &&& 0x800000000000000F#64)
    if v.getLsbD 63 then
      { s1 with pkg := { s1.pkg with m2 := digest (windowBytes s1), step := if s.pkg.step = 5 then 6 else s.pkg.step } }
    else s1

/-- PLATCTL_WRITE. -/
def execPlatctlWrite (v : BitVec 64) (s : State) : Host.Outcome State Fault Refusal := .next (writePlatctl s v)

/-- A write of RESUME: issue goes on where a supervisor core is halted (R349, R381). -/
def writeResume (s : State) (v : Word) : State :=
  eachTower s (fun s t =>
    if v.getLsbD t.toNat then modTower s t (fun w => { w with sup := { w.sup with halted := false } }) else s)

/-- RESUME_WRITE. -/
def execResumeWrite (v : BitVec 64) (s : State) : Host.Outcome State Fault Refusal := .next (writeResume s v)

/-- A word of the window's tables without the bits that read zero: the reserved bits of HOSTTOP and of word 0 of a CXL decoder, which
no check reads (R7, R381, R386). In the other words all bits are kept (DEDUCED, log 77). -/
def tableWord (off : Nat) (v : Word) : Word :=
  if off = 0x100 then v &&& ~~~(0x7FF#64 <<< 52)
  else if off = 0x200 ∨ off = 0x210 then v &&& ~~~(0x1FFFFF#64 <<< 42)
  else v

/-- A write of a word of the window's tables: discarded once locked (R381). -/
def writeTable (s : State) (off : Nat) (v : Word) : State :=
  if windowTable off ∧ off % 8 = 0 ∧ windowLocked s = false then putWindow s off (tableWord off v) else s

/-- CONTROL_WINDOW_WRITE. -/
def execControlWindowWrite (off : BitVec 16) (v : BitVec 64) (s : State) : Host.Outcome State Fault Refusal :=
  .next (writeTable s off.toNat v)

/-- A word of the window as the host reads it; RESUME and unlisted offsets read zero. -/
def readWindow (s : State) (off : Nat) : Nat := if off = 0 ∨ windowTable off = true then windowReg s off else 0

/-- The bytes `a` and up of a host write that fall into the word at `off`, over the word's old bytes. -/
def mergeWord (old off a : Nat) (bytes : List Byte) : Word :=
  word (leNat ((List.range 8).map (fun i =>
    if a ≤ off + i ∧ off + i < a + bytes.length then bytes.getD (off + i - a) 0 else BitVec.ofNat 8 (old >>> (8 * i)))))

/-- A host write to BAR0, word by word in rising order. -/
def writeBar0 (s : State) (a : Nat) (bytes : List Byte) : State :=
  (List.range (bytes.length / 8 + 2)).foldl (fun s i =>
    let off := a / 8 * 8 + 8 * i
    if off < a + bytes.length then
      if off = 0 then writePlatctl s (mergeWord (windowReg s 0) 0 a bytes)
      else if off = 8 then writeResume s (mergeWord 0 8 a bytes)
      else writeTable s off (mergeWord (windowReg s off) off a bytes)
    else s) s

/-! ### The host's requests (R107, R112, R380, R384) -/

/-- The bytes of a BAR; 0 where it is not implemented. -/
def barSize (bar : BitVec 3) : Nat := if bar = 0 then 2 ^ 16 else if bar = 2 ∨ bar = 4 then 2 ^ 21 else 0

/-- The reply to the host. -/
def replyHost (s : State) (r : HostReply) : State := { s with pkg := { s.pkg with hostReply := r } }

/-- The pool address that an offset of BAR2 reaches, where its tower's window is open. -/
def bar2Flat (s : State) (off : Nat) : Option Nat :=
  let t := BitVec.ofNat 3 (off / 2 ^ 18)
  if hcwOpen s t then some (poolFlat t (0x17C0000 + off % 2 ^ 18)) else none

/-- The pieces of a write to BAR2, one for each tower whose window is open (DEDUCED, log 81). -/
def bar2Pieces (s : State) (off : Nat) (bytes : List Byte) : List (Nat × List Byte) :=
  (List.range 8).filterMap (fun t =>
    let lo := max off (t * 2 ^ 18)
    let hi := min (off + bytes.length) ((t + 1) * 2 ^ 18)
    if lo < hi then (bar2Flat s lo).map (fun a => (a, (bytes.drop (lo - off)).take (hi - lo))) else none)

/-- HOST_POSTED_WRITE: one triggering write; a request that crosses the end of its BAR changes nothing (R380). -/
def execHostPostedWrite (bar : BitVec 3) (off : BitVec 21) (bytes : List (BitVec 8)) (s : State) : Host.Outcome State Fault Refusal :=
  if s.pkg.pcieUp = false then .next s
  else if barSize bar < off.toNat + bytes.length then .next (replyHost s .unsupported)
  else if bar = 0 then .next (writeBar0 s off.toNat bytes)
  else if bar = 2 then
    let ps := bar2Pieces s off.toNat bytes
    if ps.any (fun p => pageHeld s p.1 p.2.length) then .next s else .next (storeAll s ps)
  else .next s

/-- A byte of a little-endian word. -/
def wordByte (w : Nat) (i : Nat) : Byte := BitVec.ofNat 8 (w >>> (8 * i))

/-- The header of a tower's log (R384, R394). -/
def logHeader (s : State) (t : BitVec 3) : Nat :=
  let w := getTower s t
  (if w.sup.halted then 2 ^ 63 else 0) + w.wridx.toNat +
    (if t = 0 then s.pkg.step * 2 ^ 32 + (if s.pkg.failed then 2 ^ 62 else 0) else 0)

/-- A byte of BAR4. -/
def bar4Byte (s : State) (off : Nat) : Byte :=
  if off < 0x100000 then
    let e := mapGet ⟨0, 0, 0, 0⟩ (getTower s (BitVec.ofNat 3 (off / 0x20000))).log (off % 0x20000 / 32)
    wordByte ([e.fsyn, e.fadr, e.fbnd, e.fslt].getD (off % 32 / 8) 0).toNat (off % 8)
  else if off < 0x100100 ∧ off % 32 < 8 then wordByte (logHeader s (BitVec.ofNat 3 ((off - 0x100000) / 32))) (off % 8)
  else 0

/-- A byte that the host reads (DEDUCED, log 79). -/
def hostByte (s : State) (bar : BitVec 3) (off : Nat) : Byte :=
  if bar = 0 then wordByte (readWindow s (off / 8 * 8)) (off % 8)
  else if bar = 2 then
    match bar2Flat s off with
    | some a => readByte s a
    | none => 0
  else bar4Byte s off

/-- HOST_READ. -/
def execHostRead (bar : BitVec 3) (off : BitVec 21) (n : Nat) (s : State) : Host.Outcome State Fault Refusal :=
  if s.pkg.pcieUp = false then .next s
  else if barSize bar < off.toNat + n then .next (replyHost s .unsupported)
  else .next (replyHost s (.data ((List.range n).map (fun i => hostByte s bar (off.toNat + i)))))

/-- HOST_ATOMIC_REQUEST: Unsupported Request, nothing changes. -/
def execHostAtomicRequest (_bar : BitVec 3) (_off : BitVec 21) (s : State) : Host.Outcome State Fault Refusal :=
  if s.pkg.pcieUp = false then .next s else .next (replyHost s .unsupported)

/-! ### Clozer links (R387) -/

/-- LINK_TRAINING: a link that trains learns its peer, and comes up only if LINKMAP enables it and names that chip. -/
def execLinkTraining (link : BitVec 4) (trained : Bool) (peer : BitVec 4) (s : State) : Host.Outcome State Fault Refusal :=
  let e := windowReg s (0x1000 + 8 * link.toNat)
  let l : Link := ⟨trained && bit e 7 && decide (bits e 3 0 = peer.toNat), peer⟩
  .next { s with pkg := { s.pkg with links := setAt s.pkg.links link.toNat l } }

/-! ### Bring-up (R391 to R394) -/

/-- What package reset leaves of a core: the features its fuses clear stay cleared. -/
def resetCore (x : Nat × CoreSt) : Nat × CoreSt :=
  (x.1, { CoreSt.reset x.1 with fused := x.2.fused, cfm := cfmReset x.1 &&& ~~~x.2.fused })

/-- Does a byte of memory keep its contents over package reset: every space but the pools, whose tables hold their reset contents
(DESIGN CHOICE, log 50)? -/
def keepsByte (c : Host.Cell) : Bool := !inPool c.1

/-- PACKAGE_RESET: every register at its reset value, bring-up at step 1; fuses, memory outside the pools and the model's own
counters and inputs stay. -/
def execPackageReset (s : State) : Host.Outcome State Fault Refusal :=
  .next { State.reset with
    mem := s.mem.filter keepsByte
    cores := s.cores.map resetCore
    pkg := { PkgSt.reset with svn := s.pkg.svn, resets := s.pkg.resets + 1 }
    bad := s.bad.filter (fun g => !inPool (8 * g))
    inputs := s.inputs, free := s.free, nextId := s.nextId }

/-- PCIE_LINK_TRAIN: step 1 ends. -/
def execPcieLinkTrain (s : State) : Host.Outcome State Fault Refusal :=
  if s.pkg.step = 1 ∧ s.pkg.failed = false then .next { s with pkg := { s.pkg with pcieUp := true, step := 2 } } else .next s

/-- Does Aknel accept an image (R391)? -/
def imageAccepted (s : State) (i : Image) : Bool :=
  decide (i.key.length = 1952) && decide (i.signature.length = 3309) && decide (digest i.key = Config.vendorDigest) &&
    Config.mldsaVerify i.key i.body i.signature && decide (s.pkg.svn.toNat ≤ i.svn.toNat)

/-- AKNEL_VERIFY: step 2; a failing self-test (DESIGN CHOICE, log 109) or a rejected image stops bring-up, and no part of the images
is kept (DEDUCED, log 80). -/
def execAknelVerify (firmware platform : Image) (s : State) : Host.Outcome State Fault Refusal :=
  if s.pkg.step ≠ 2 ∨ s.pkg.failed = true then .next s
  else if Config.selfTest s.pkg.resets ∧ imageAccepted s firmware ∧ imageAccepted s platform then
    .next { s with
      pkg := { s.pkg with
        firmware := firmware.body, platform := platform.body, m0 := digest firmware.body, m1 := digest platform.body
        newSvn := BitVec.ofNat 32 (max s.pkg.svn.toNat (max firmware.svn.toNat platform.svn.toNat)), step := 3 } }
  else .next { s with pkg := { s.pkg with failed := true } }

/-- DRAM_SPIRE_TRAINING: step 3 on a tower; failing spires are retired, spares first, and a tower that loses one stays in reset. -/
def execDramSpireTraining (t : BitVec 3) (failing : BitVec 32) (s : State) : Host.Outcome State Fault Refusal :=
  if s.pkg.step ≠ 3 ∨ s.pkg.failed = true ∨ s.pkg.trained.getLsbD t.toNat = true then .next s
  else
    let s1 := ((List.range 32).filter (fun n => failing.getLsbD n)).foldl (fun s n =>
      retireStep (beginRetire s t (BitVec.ofNat 5 n) .decide) t (BitVec.ofNat 5 n)) s
    let s2 := modTower s1 t (fun w => { w with inReset := decide (w.lostSpires ≠ 0) })
    let done := s.pkg.trained ||| (1#8 <<< t.toNat)
    .next { s2 with pkg := { s2.pkg with trained := done, step := if done = 0xFF then 4 else 3 } }

/-- MALASKUN_START: step 4; the image is copied into TM of each live tower, whose supervisor core starts at its entry with
IE = 0. Where it stands and begins is the image's, which the spec does not lay out (DESIGN CHOICE, log 51). -/
def execMalaskunStart (adr : BitVec 36) (entry : BitVec 64) (s : State) : Host.Outcome State Fault Refusal :=
  if s.pkg.step ≠ 4 ∨ s.pkg.failed = true then .next s
  else
    let s1 := eachTower s (fun s t =>
      if (getTower s t).inReset then s
      else
        let s1 := storeQuiet s (tmFlat t.toNat adr.toNat) s.pkg.firmware
        let s2 := modTower s1 t (fun w => { w with sup := { w.sup with inReset := false, sstat := 0 } })
        modTaskOf s2 (.sup t) (fun k => { k with pc := entry }))
    .next { s1 with pkg := { s1.pkg with step := if windowLocked s then 6 else 5 } }

/-- The seed of the identity key pair (R392). -/
def identitySeed : List Byte := 
  shake256 (leBytes 32 Config.deviceSecret.toNat ++ [0x47, 0x38, 0x2D, 0x49, 0x44]) 32

/-- An attestation report without its signature (R393). -/
def reportBody (s : State) (nonce : List Byte) : List Byte :=
  leBytes 8 0x5452_5441_384B_4E41 ++ leBytes 4 1 ++ leBytes 4 s.pkg.svn.toNat ++ leBytes 1952 (Config.mldsaPublic identitySeed).toNat ++
    leBytes 32 s.pkg.m0.toNat ++ leBytes 32 s.pkg.m1.toNat ++ leBytes 32 s.pkg.m2.toNat ++ nonce ++ leBytes 8 s.pkg.cyc.toNat

/-- ATTESTATION_REQUEST: a report over a nonce of 32 bytes, signed by the identity key, once Malaskun runs to ask for it. -/
def execAttestationRequest (nonce : List (BitVec 8)) (s : State) : Host.Outcome State Fault Refusal :=
  if nonce.length ≠ 32 ∨ (1 ≤ s.pkg.step ∧ s.pkg.step < 5) then .next s
  else
    let b := reportBody s nonce
    .next { s with pkg := { s.pkg with report := b ++ leBytes 3309 (Config.mldsaSign s.free identitySeed b).toNat }, free := s.free + 1 }

end Sys2Proof.Machine
end

