-- ==== Sys2Proof/Machine/Dispatch.lean ====
section
/-!
DEFINITION. The dispatch: one arm for each constructor of `Instr`, in the opcode table's order.
-/
namespace Sys2Proof.Machine

/-- The meaning of every row of the opcode table. -/
def exec (i : Instr) (s : State) : Host.Outcome State Fault Refusal :=
  match i with
  | .nop stop => Sys2Proof.Machine.execNop stop s
  | .bundleIssue a => Sys2Proof.Machine.execBundleIssue a s
  | .budgetTrap t c => Sys2Proof.Machine.execBudgetTrap t c s
  | .add p h f => Sys2Proof.Machine.execAdd p h f s
  | .sub p h f => Sys2Proof.Machine.execSub p h f s
  | .addi p h f => Sys2Proof.Machine.execAddi p h f s
  | .mul p h f => Sys2Proof.Machine.execMul p h f s
  | .mulh p h f => Sys2Proof.Machine.execMulh p h f s
  | .mulhu p h f => Sys2Proof.Machine.execMulhu p h f s
  | .div h f => Sys2Proof.Machine.execDiv h f s
  | .divu h f => Sys2Proof.Machine.execDivu h f s
  | .rem h f => Sys2Proof.Machine.execRem h f s
  | .remu h f => Sys2Proof.Machine.execRemu h f s
  | .addpc p h f => Sys2Proof.Machine.execAddpc p h f s
  | .and p h f => Sys2Proof.Machine.execAnd p h f s
  | .or p h f => Sys2Proof.Machine.execOr p h f s
  | .xor p h f => Sys2Proof.Machine.execXor p h f s
  | .andn p h f => Sys2Proof.Machine.execAndn p h f s
  | .andi p h f => Sys2Proof.Machine.execAndi p h f s
  | .ori p h f => Sys2Proof.Machine.execOri p h f s
  | .xori p h f => Sys2Proof.Machine.execXori p h f s
  | .shl p h f => Sys2Proof.Machine.execShl p h f s
  | .shr p h f => Sys2Proof.Machine.execShr p h f s
  | .sar p h f => Sys2Proof.Machine.execSar p h f s
  | .shli p h f => Sys2Proof.Machine.execShli p h f s
  | .shri p h f => Sys2Proof.Machine.execShri p h f s
  | .sari p h f => Sys2Proof.Machine.execSari p h f s
  | .fshl p h f => Sys2Proof.Machine.execFshl p h f s
  | .fshr p h f => Sys2Proof.Machine.execFshr p h f s
  | .cmp p h f => Sys2Proof.Machine.execCmp p h f s
  | .cmpi p h f => Sys2Proof.Machine.execCmpi p h f s
  | .sel p h f => Sys2Proof.Machine.execSel p h f s
  | .min p h f => Sys2Proof.Machine.execMin p h f s
  | .max p h f => Sys2Proof.Machine.execMax p h f s
  | .minu p h f => Sys2Proof.Machine.execMinu p h f s
  | .maxu p h f => Sys2Proof.Machine.execMaxu p h f s
  | .bfx p h f => Sys2Proof.Machine.execBfx p h f s
  | .bfxu p h f => Sys2Proof.Machine.execBfxu p h f s
  | .bfi p h f => Sys2Proof.Machine.execBfi p h f s
  | .clz p h f => Sys2Proof.Machine.execClz p h f s
  | .ctz p h f => Sys2Proof.Machine.execCtz p h f s
  | .popc p h f => Sys2Proof.Machine.execPopc p h f s
  | .brev p h f => Sys2Proof.Machine.execBrev p h f s
  | .bswap p h f => Sys2Proof.Machine.execBswap p h f s
  | .li p h f => Sys2Proof.Machine.execLi p h f s
  | .lih p h f => Sys2Proof.Machine.execLih p h f s
  | .phash h f => Sys2Proof.Machine.execPhash h f s
  | .pbr h f => Sys2Proof.Machine.execPbr h f s
  | .pbrr h f => Sys2Proof.Machine.execPbrr h f s
  | .xfer h f => Sys2Proof.Machine.execXfer h f s
  | .xferl h f => Sys2Proof.Machine.execXferl h f s
  | .loop h f => Sys2Proof.Machine.execLoop h f s
  | .loopi h f => Sys2Proof.Machine.execLoopi h f s
  | .breakLoop h f => Sys2Proof.Machine.execBreakLoop h f s
  | .vany h f => Sys2Proof.Machine.execVany h f s
  | .vall h f => Sys2Proof.Machine.execVall h f s
  | .fop h f => Sys2Proof.Machine.execFop h f s
  | .wfe h f => Sys2Proof.Machine.execWfe h f s
  | .sev h f => Sys2Proof.Machine.execSev h f s
  | .tend h f => Sys2Proof.Machine.execTend h f s
  | .amov h f => Sys2Proof.Machine.execAmov h f s
  | .aadd h f => Sys2Proof.Machine.execAadd h f s
  | .aaddi h f => Sys2Proof.Machine.execAaddi h f s
  | .acfg h f => Sys2Proof.Machine.execAcfg h f s
  | .aind h f => Sys2Proof.Machine.execAind h f s
  | .arun h f => Sys2Proof.Machine.execArun h f s
  | .astop h f => Sys2Proof.Machine.execAstop h f s
  | .generatorStep a => Sys2Proof.Machine.execGeneratorStep a s
  | .vadd h f => Sys2Proof.Machine.execVadd h f s
  | .vsub h f => Sys2Proof.Machine.execVsub h f s
  | .vmul h f => Sys2Proof.Machine.execVmul h f s
  | .vfma h f => Sys2Proof.Machine.execVfma h f s
  | .vmin h f => Sys2Proof.Machine.execVmin h f s
  | .vmax h f => Sys2Proof.Machine.execVmax h f s
  | .vabs h f => Sys2Proof.Machine.execVabs h f s
  | .vneg h f => Sys2Proof.Machine.execVneg h f s
  | .vadds h f => Sys2Proof.Machine.execVadds h f s
  | .vsubs h f => Sys2Proof.Machine.execVsubs h f s
  | .vmulh h f => Sys2Proof.Machine.execVmulh h f s
  | .vand h f => Sys2Proof.Machine.execVand h f s
  | .vor h f => Sys2Proof.Machine.execVor h f s
  | .vxor h f => Sys2Proof.Machine.execVxor h f s
  | .vandn h f => Sys2Proof.Machine.execVandn h f s
  | .vshl h f => Sys2Proof.Machine.execVshl h f s
  | .vshr h f => Sys2Proof.Machine.execVshr h f s
  | .vsar h f => Sys2Proof.Machine.execVsar h f s
  | .vpopc h f => Sys2Proof.Machine.execVpopc h f s
  | .vcvt h f => Sys2Proof.Machine.execVcvt h f s
  | .vpack h f => Sys2Proof.Machine.execVpack h f s
  | .vunpk h f => Sys2Proof.Machine.execVunpk h f s
  | .vrsum h f => Sys2Proof.Machine.execVrsum h f s
  | .vrmax h f => Sys2Proof.Machine.execVrmax h f s
  | .vrmin h f => Sys2Proof.Machine.execVrmin h f s
  | .vrand h f => Sys2Proof.Machine.execVrand h f s
  | .vror h f => Sys2Proof.Machine.execVror h f s
  | .vcmp h f => Sys2Proof.Machine.execVcmp h f s
  | .vqand h f => Sys2Proof.Machine.execVqand h f s
  | .vqor h f => Sys2Proof.Machine.execVqor h f s
  | .vqnot h f => Sys2Proof.Machine.execVqnot h f s
  | .vsel h f => Sys2Proof.Machine.execVsel h f s
  | .vperm h f => Sys2Proof.Machine.execVperm h f s
  | .vbcast h f => Sys2Proof.Machine.execVbcast h f s
  | .vbcastLn h f => Sys2Proof.Machine.execVbcastLn h f s
  | .vmov h f => Sys2Proof.Machine.execVmov h f s
  | .vins h f => Sys2Proof.Machine.execVins h f s
  | .vext h f => Sys2Proof.Machine.execVext h f s
  | .vzps h f => Sys2Proof.Machine.execVzps h f s
  | .vplx h f => Sys2Proof.Machine.execVplx h f s
  | .vpli h f => Sys2Proof.Machine.execVpli h f s
  | .vexp2 h f => Sys2Proof.Machine.execVexp2 h f s
  | .vrcp h f => Sys2Proof.Machine.execVrcp h f s
  | .vmrg h f => Sys2Proof.Machine.execVmrg h f s
  | .gidx h f => Sys2Proof.Machine.execGidx h f s
  | .gath h f => Sys2Proof.Machine.execGath h f s
  | .mcfg h f => Sys2Proof.Machine.execMcfg h f s
  | .busEpochStart t layer cluster => Sys2Proof.Machine.execBusEpochStart t layer cluster s
  | .mzero h f => Sys2Proof.Machine.execMzero h f s
  | .mpush h f => Sys2Proof.Machine.execMpush h f s
  | .mshf h f => Sys2Proof.Machine.execMshf h f s
  | .macc h f => Sys2Proof.Machine.execMacc h f s
  | .macch h f => Sys2Proof.Machine.execMacch h f s
  | .mdrn h f => Sys2Proof.Machine.execMdrn h f s
  | .grantWindow t cluster col => Sys2Proof.Machine.execGrantWindow t cluster col s
  | .ld h f => Sys2Proof.Machine.execLd h f s
  | .ldz h f => Sys2Proof.Machine.execLdz h f s
  | .st h f => Sys2Proof.Machine.execSt h f s
  | .vld h f => Sys2Proof.Machine.execVld h f s
  | .vst h f => Sys2Proof.Machine.execVst h f s
  | .tld h f => Sys2Proof.Machine.execTld h f s
  | .tst h f => Sys2Proof.Machine.execTst h f s
  | .amo h f => Sys2Proof.Machine.execAmo h f s
  | .cas h f => Sys2Proof.Machine.execCas h f s
  | .mark h f => Sys2Proof.Machine.execMark h f s
  | .gld h f => Sys2Proof.Machine.execGld h f s
  | .gldz h f => Sys2Proof.Machine.execGldz h f s
  | .gst h f => Sys2Proof.Machine.execGst h f s
  | .gvld h f => Sys2Proof.Machine.execGvld h f s
  | .gvst h f => Sys2Proof.Machine.execGvst h f s
  | .gtld h f => Sys2Proof.Machine.execGtld h f s
  | .gtst h f => Sys2Proof.Machine.execGtst h f s
  | .gamo h f => Sys2Proof.Machine.execGamo h f s
  | .gcas h f => Sys2Proof.Machine.execGcas h f s
  | .gmark h f => Sys2Proof.Machine.execGmark h f s
  | .wld h f => Sys2Proof.Machine.execWld h f s
  | .wldz h f => Sys2Proof.Machine.execWldz h f s
  | .wst h f => Sys2Proof.Machine.execWst h f s
  | .wvld h f => Sys2Proof.Machine.execWvld h f s
  | .wvst h f => Sys2Proof.Machine.execWvst h f s
  | .wtld h f => Sys2Proof.Machine.execWtld h f s
  | .wtst h f => Sys2Proof.Machine.execWtst h f s
  | .wamo h f => Sys2Proof.Machine.execWamo h f s
  | .wcas h f => Sys2Proof.Machine.execWcas h f s
  | .wmark h f => Sys2Proof.Machine.execWmark h f s
  | .bld h f => Sys2Proof.Machine.execBld h f s
  | .xlate h f => Sys2Proof.Machine.execXlate h f s
  | .fence h f => Sys2Proof.Machine.execFence h f s
  | .cpy h f => Sys2Proof.Machine.execCpy h f s
  | .cpyt h f => Sys2Proof.Machine.execCpyt h f s
  | .copyIssue job => Sys2Proof.Machine.execCopyIssue job s
  | .chunkLand job chunk err => Sys2Proof.Machine.execChunkLand job chunk err s
  | .waitc h f => Sys2Proof.Machine.execWaitc h f s
  | .pxfer h f => Sys2Proof.Machine.execPxfer h f s
  | .peerChunkReceive link adr bytes flag => Sys2Proof.Machine.execPeerChunkReceive link adr bytes flag s
  | .sqopen h f => Sys2Proof.Machine.execSqopen h f s
  | .sqclose h f => Sys2Proof.Machine.execSqclose h f s
  | .sqnode h f => Sys2Proof.Machine.execSqnode h f s
  | .sqchk h f => Sys2Proof.Machine.execSqchk h f s
  | .sqacc h f => Sys2Proof.Machine.execSqacc h f s
  | .sqaccAssistComplete h f => Sys2Proof.Machine.execSqaccAssistComplete h f s
  | .sqsave h f => Sys2Proof.Machine.execSqsave h f s
  | .sqrst h f => Sys2Proof.Machine.execSqrst h f s
  | .kvgrow h f => Sys2Proof.Machine.execKvgrow h f s
  | .kvcommit h f => Sys2Proof.Machine.execKvcommit h f s
  | .kvroll h f => Sys2Proof.Machine.execKvroll h f s
  | .kvexport h f => Sys2Proof.Machine.execKvexport h f s
  | .kvpoolEnable h f => Sys2Proof.Machine.execKvpoolEnable h f s
  | .kvpoolDisable h f => Sys2Proof.Machine.execKvpoolDisable h f s
  | .kvpoolPin h f => Sys2Proof.Machine.execKvpoolPin h f s
  | .kvpoolUnpin h f => Sys2Proof.Machine.execKvpoolUnpin h f s
  | .kvpoolSetent h f => Sys2Proof.Machine.execKvpoolSetent h f s
  | .kvpoolAlloc h f => Sys2Proof.Machine.execKvpoolAlloc h f s
  | .kvpoolFree h f => Sys2Proof.Machine.execKvpoolFree h f s
  | .pfxlook h f => Sys2Proof.Machine.execPfxlook h f s
  | .pfxins h f => Sys2Proof.Machine.execPfxins h f s
  | .pfxinsAssistComplete h f => Sys2Proof.Machine.execPfxinsAssistComplete h f s
  | .pfxpin h f => Sys2Proof.Machine.execPfxpin h f s
  | .stcfgConfigure h f => Sys2Proof.Machine.execStcfgConfigure h f s
  | .stcfgDisable h f => Sys2Proof.Machine.execStcfgDisable h f s
  | .stcfgEvict h f => Sys2Proof.Machine.execStcfgEvict h f s
  | .stcfgRestore h f => Sys2Proof.Machine.execStcfgRestore h f s
  | .spawn h f => Sys2Proof.Machine.execSpawn h f s
  | .gbar h f => Sys2Proof.Machine.execGbar h f s
  | .watch h f => Sys2Proof.Machine.execWatch h f s
  | .unwatch h f => Sys2Proof.Machine.execUnwatch h f s
  | .ttrel h f => Sys2Proof.Machine.execTtrel h f s
  | .rdtime h f => Sys2Proof.Machine.execRdtime h f s
  | .waittCyc h f => Sys2Proof.Machine.execWaittCyc h f s
  | .waittTick h f => Sys2Proof.Machine.execWaittTick h f s
  | .budset h f => Sys2Proof.Machine.execBudset h f s
  | .vopen h f => Sys2Proof.Machine.execVopen h f s
  | .vseal h f => Sys2Proof.Machine.execVseal h f s
  | .vsealPerform id => Sys2Proof.Machine.execVsealPerform id s
  | .vhold h f => Sys2Proof.Machine.execVhold h f s
  | .vrel h f => Sys2Proof.Machine.execVrel h f s
  | .mfsr h f => Sys2Proof.Machine.execMfsr h f s
  | .mtsr h f => Sys2Proof.Machine.execMtsr h f s
  | .svc h f => Sys2Proof.Machine.execSvc h f s
  | .eret h f => Sys2Proof.Machine.execEret h f s
  | .trap h f => Sys2Proof.Machine.execTrap h f s
  | .csld h f => Sys2Proof.Machine.execCsld h f s
  | .icinv h f => Sys2Proof.Machine.execIcinv h f s
  | .halt h f => Sys2Proof.Machine.execHalt h f s
  | .mmt h f => Sys2Proof.Machine.execMmt h f s
  | .matt h f => Sys2Proof.Machine.execMatt h f s
  | .macroBegin t c => Sys2Proof.Machine.execMacroBegin t c s
  | .taskLaunch t k bank => Sys2Proof.Machine.execTaskLaunch t k bank s
  | .pop t c k j delay => Sys2Proof.Machine.execPop t c k j delay s
  | .gangBackoffExpiry t num => Sys2Proof.Machine.execGangBackoffExpiry t num s
  | .drainClaimCommit t cluster => Sys2Proof.Machine.execDrainClaimCommit t cluster s
  | .preemption t c => Sys2Proof.Machine.execPreemption t c s
  | .frameStart => Sys2Proof.Machine.execFrameStart s
  | .releaseTick t => Sys2Proof.Machine.execReleaseTick t s
  | .streamCheckPoint t slot => Sys2Proof.Machine.execStreamCheckPoint t slot s
  | .streamTick t slot => Sys2Proof.Machine.execStreamTick t slot s
  | .watchTrigger t => Sys2Proof.Machine.execWatchTrigger t s
  | .ethFrameReceive port fcsOk bytes => Sys2Proof.Machine.execEthFrameReceive port fcsOk bytes s
  | .ptpMessage port t1 t2 t3 t4 => Sys2Proof.Machine.execPtpMessage port t1 t2 t3 t4 s
  | .streamEviction t slot => Sys2Proof.Machine.execStreamEviction t slot s
  | .streamRestore t slot => Sys2Proof.Machine.execStreamRestore t slot s
  | .pageInSwitch k => Sys2Proof.Machine.execPageInSwitch k s
  | .evictionRetry t => Sys2Proof.Machine.execEvictionRetry t s
  | .evictionSwitch k => Sys2Proof.Machine.execEvictionSwitch k s
  | .backgroundZeroing unit => Sys2Proof.Machine.execBackgroundZeroing unit s
  | .spireErrorThreshold t spire errors => Sys2Proof.Machine.execSpireErrorThreshold t spire errors s
  | .spireLaneFail t spire => Sys2Proof.Machine.execSpireLaneFail t spire s
  | .sprqDecide t v => Sys2Proof.Machine.execSprqDecide t v s
  | .sprqSpare t v => Sys2Proof.Machine.execSprqSpare t v s
  | .sprqReroute t v => Sys2Proof.Machine.execSprqReroute t v s
  | .spireRetirement t spire => Sys2Proof.Machine.execSpireRetirement t spire s
  | .bufferMigration t spire => Sys2Proof.Machine.execBufferMigration t spire s
  | .sensorSample t sensor reading => Sys2Proof.Machine.execSensorSample t sensor reading s
  | .thermalStepTimer t => Sys2Proof.Machine.execThermalStepTimer t s
  | .thermalReleaseTimer t => Sys2Proof.Machine.execThermalReleaseTimer t s
  | .powerThrottleAdjust t milliwatts => Sys2Proof.Machine.execPowerThrottleAdjust t milliwatts s
  | .softErrorAtRest place uncorrectable => Sys2Proof.Machine.execSoftErrorAtRest place uncorrectable s
  | .supervisorTrapEntry t => Sys2Proof.Machine.execSupervisorTrapEntry t s
  | .heldTrapRetry t => Sys2Proof.Machine.execHeldTrapRetry t s
  | .cfsynResume t c => Sys2Proof.Machine.execCfsynResume t c s
  | .cfsynSuspend t c => Sys2Proof.Machine.execCfsynSuspend t c s
  | .tfgoFill t v => Sys2Proof.Machine.execTfgoFill t v s
  | .tfgoFail t v => Sys2Proof.Machine.execTfgoFail t v s
  | .tkillTask t v => Sys2Proof.Machine.execTkillTask t v s
  | .tkillContextTower t v => Sys2Proof.Machine.execTkillContextTower t v s
  | .tkillContextPackage t v => Sys2Proof.Machine.execTkillContextPackage t v s
  | .sevw t v => Sys2Proof.Machine.execSevw t v s
  | .svcr t v => Sys2Proof.Machine.execSvcr t v s
  | .otw t v => Sys2Proof.Machine.execOtw t v s
  | .otwBusyClear t => Sys2Proof.Machine.execOtwBusyClear t s
  | .xinvPage t v => Sys2Proof.Machine.execXinvPage t v s
  | .xinvContext t v => Sys2Proof.Machine.execXinvContext t v s
  | .xinvAll t v => Sys2Proof.Machine.execXinvAll t v s
  | .xinvDone => Sys2Proof.Machine.execXinvDone s
  | .vbdEnable t c n v => Sys2Proof.Machine.execVbdEnable t c n v s
  | .vbdDisable t c n v => Sys2Proof.Machine.execVbdDisable t c n v s
  | .cfmWrite t c v => Sys2Proof.Machine.execCfmWrite t c v s
  | .budWrite t ctx v => Sys2Proof.Machine.execBudWrite t ctx v s
  | .frmcfgWrite v => Sys2Proof.Machine.execFrmcfgWrite v s
  | .tofsWrite v => Sys2Proof.Machine.execTofsWrite v s
  | .hcwWrite t v => Sys2Proof.Machine.execHcwWrite t v s
  | .registerWrite a n v => Sys2Proof.Machine.execRegisterWrite a n v s
  | .hostPostedWrite bar off bytes => Sys2Proof.Machine.execHostPostedWrite bar off bytes s
  | .hostRead bar off n => Sys2Proof.Machine.execHostRead bar off n s
  | .hostAtomicRequest bar off => Sys2Proof.Machine.execHostAtomicRequest bar off s
  | .platctlWrite v => Sys2Proof.Machine.execPlatctlWrite v s
  | .resumeWrite v => Sys2Proof.Machine.execResumeWrite v s
  | .controlWindowWrite off v => Sys2Proof.Machine.execControlWindowWrite off v s
  | .linkTraining link trained peer => Sys2Proof.Machine.execLinkTraining link trained peer s
  | .packageReset => Sys2Proof.Machine.execPackageReset s
  | .pcieLinkTrain => Sys2Proof.Machine.execPcieLinkTrain s
  | .aknelVerify firmware platform => Sys2Proof.Machine.execAknelVerify firmware platform s
  | .dramSpireTraining t failing => Sys2Proof.Machine.execDramSpireTraining t failing s
  | .malaskunStart adr entry => Sys2Proof.Machine.execMalaskunStart adr entry s
  | .attestationRequest nonce => Sys2Proof.Machine.execAttestationRequest nonce s
  | .accessPerformedAtHome access granule err => Sys2Proof.Machine.execAccessPerformedAtHome access granule err s
  | .ptpMasterLost => Sys2Proof.Machine.execPtpMasterLost s

end Sys2Proof.Machine
end

