-- ==== Sys2Proof/Machine/Moves.lean ====
section
/-!
DEFINITION. The device's own order: the steps that its agents and units try in one cycle of CYC, one after the other
(DESIGN CHOICE, log 7).
A step that is not enabled when its turn comes changes nothing, and is tried again in the next cycle. What reaches the package
from outside stands in `inputs` (DESIGN CHOICE, log 8).
-/
namespace Sys2Proof.Machine

/-- The compute cores in the state, by tower and code. -/
def liveCores (s : State) : List (BitVec 3 × BitVec 6 × CoreSt) :=
  s.cores.filterMap (fun x =>
    match keyAgent x.1 with
    | .core t c => if x.2.live then some (t, c, x.2) else none
    | .sup _ => none)

/-- Grant windows at their first cycle (R60): the columns of the cores that hold a task. -/
def windowMoves (s : State) : List Move :=
  if s.pkg.cyc.toNat % 64 = 0 then
    ((liveCores s).map (fun x => Move.grantWindow x.1 (x.2.1.extractLsb' 2 3) (x.2.1.extractLsb' 0 2))).eraseDups
  else []

/-- The two banks and the delay that the random source draws for a core's request (R355; DESIGN CHOICE, log 11). -/
def popMove (s : State) (t : BitVec 3) (c : Nat) : Move :=
  let n := s.free + 3 * (64 * t.toNat + c)
  let i := Config.freeNat n % 16
  .pop t (BitVec.ofNat 6 c) (BitVec.ofNat 4 i) (BitVec.ofNat 4 (i + 1 + Config.freeNat (n + 1) % 15)) (Config.freeNat (n + 2))

/-- The request that a tower's dispatcher serves in a cycle: that of the lowest free core (R355). A core that a gang's claim
keeps makes none. -/
def popMoves (s : State) (t : BitVec 3) : List Move :=
  if (getTower s t).ready.isEmpty then []
  else
    (((List.range 64).filter (fun c =>
      let x := getCore s (.core t (BitVec.ofNat 6 c))
      !x.live && !x.asked && x.reserved.all (fun n => !entryGang s n))).take 1).map (popMove s t)

/-- What the units of a tower try; those of a tower held in reset try nothing (R394). -/
def towerMoves (s : State) (t : BitVec 3) : List Move :=
  let w := getTower s t
  if w.inReset then [] else
  let on := streamsOn s t
  let slots := fun (f : BitVec 3 → BitVec 10 → Move) => on.map (fun n => f t (BitVec.ofNat 10 n))
  [.releaseTick t] ++ slots .streamTick ++ slots .streamCheckPoint ++ slots .streamEviction ++ slots .streamRestore ++
    w.trigs.map (fun _ => .watchTrigger t) ++
    w.launches.map (fun l => .taskLaunch t l.id (BitVec.ofNat 4 (Config.freeNat (s.free + 1536 + l.id)))) ++
    (w.ready.filter (fun e => e.backoff.isSome)).map (fun e => .gangBackoffExpiry t e.num) ++
    popMoves s t ++
    (w.claims.map (fun x => Move.drainClaimCommit t (BitVec.ofNat 3 x.cluster))).eraseDups ++
    w.retires.flatMap (fun r => [.spireRetirement t r.spire, .bufferMigration t r.spire]) ++
    [.heldTrapRetry t, .evictionRetry t, .otwBusyClear t, .thermalStepTimer t, .thermalReleaseTimer t]

/-- Of these steps, the ones that nothing delays in this cycle: the spec bounds neither how long an access, a chunk or a bundle
takes nor what stalls it, so a free bit decides for each (R33, R313; DESIGN CHOICE, log 7). -/
def freeMoves (n : Nat) : List Move → List Move
  | [] => []
  | m :: l => if Config.freeBit n then m :: freeMoves (n + 1) l else freeMoves (n + 1) l

/-- Events of copies that wait for their time, and of pages, buses and zeroing. -/
def flightMoves (s : State) : List Move :=
  (s.jobs.filter Job.waiting).map (fun j => .copyIssue j.id) ++
    s.buses.map (fun g => .busEpochStart g.tower g.layer g.cluster) ++ [.xinvDone]

/-- The free number of this cycle for the `k`-th choice about an access, job or paging (DESIGN CHOICE, log 9): every choice has
a number of its own. -/
def cycleDraw (s : State) (k id : Nat) : Nat := Config.freeNat (s.free + 1536 + (k + 1) * s.nextId + id)

/-- What may be performed of an access: one granule, drawn, or all that remains (R92, R93). -/
def accessMoves (s : State) (x : Access) : List Move :=
  (if 1 < x.grans.length then [.access x.id ((x.grans[cycleDraw s 0 x.id % x.grans.length]?).map Gran.adr)] else []) ++
    [.access x.id none]

/-- Events of memory, copies, commands, seals and buses in flight, any of which may be delayed. -/
def memoryMoves (s : State) : List Move :=
  s.acc.flatMap (accessMoves s) ++ s.walks.map (fun w => .walkStep w.id) ++
    (s.jobs.filter (fun j => !j.waiting)).flatMap (fun j =>
      (List.range j.chunks).map (fun i => .chunkPart j.id i (cycleDraw s (i + 2) j.id % 8)) ++
        (List.range (j.chunks + 1)).map (fun i => .chunkLand j.id i)) ++
    s.seals.map (fun p => .vsealPerform p.id) ++ s.buses.map (fun g => .busAhead g.tower g.layer g.cluster) ++
    s.zero.map (fun z => .backgroundZeroing z.base) ++ (s.evicts ++ s.pageIns).flatMap (fun g =>
      [.pagePart g.id (cycleDraw s 1 g.id % (poolPage s g.tower g.pool / 64))]) ++
    s.towers.flatMap (fun w => w.2.landing.flatMap (fun x =>
      [.framePart (BitVec.ofNat 3 w.1) x.id (cycleDraw s 1 x.id % ceilDiv x.frame.bytes.length 64), .frameLand (BitVec.ofNat 3 w.1) x.id])) ++
    s.pageIns.map (fun g => .pageInSwitch g.id) ++ s.evicts.map (fun g => .evictionSwitch g.id)

/-- What a core that holds a task tries besides its bundles. -/
def coreMoves (x : BitVec 3 × BitVec 6 × CoreSt) : List Move :=
  let (t, c, k) := x
  (if k.task.trapDue ≠ 0 then [.budgetTrap t c] else []) ++ (if k.preempt then [.preemption t c] else []) ++
    (if k.suspend then [.suspend t c] else []) ++ (if k.kill then [.kill t c] else [])

/-- The bundles and macros of a core that holds a task, in a cycle that its tower's clock step leaves it (R361). A macro comes after
the bundle: a flag that it raises stays set against an MTSR of the same cycle (R212). -/
def issueMoves (s : State) (x : BitVec 3 × BitVec 6 × CoreSt) : List Move :=
  let (t, c, k) := x
  if clockTicks s t then
    (if Config.freeBit (s.free + coreKey (.core t c)) then .bundleIssue (.core t c) else .bundleSlow (.core t c)) ::
      (if k.task.macros.isEmpty then [] else [.macroBegin t c])
  else []

/-- The version operation in the next bundle of an agent, if there is one: its kind, releases before holds before opens, and the name
of its buffer. -/
def nextVersionOp (s : State) (a : Agent) : Option (Nat × Word) :=
  let s1 := modTaskOf { s with cur := a } a commitDue
  let k := (getCore s1 a).task
  match fetchBundle s1 a k.pc with
  | (.ok bs, _) =>
    match splitBundle bs with
    | .ok (b, _) => b.syls.findSome? (fun x =>
        match if x.1 = 11 then decodeSyllable 11 x.2 else none with
        | some (.vrel _ f) => some (0, scalarIn k f.a)
        | some (.vhold _ f) => some (1, scalarIn k f.a)
        | some (.vopen _ f) => some (2, scalarIn k f.a)
        | _ => none)
    | .error _ => none
  | _ => none

/-- The place of an agent's bundle among those of a cycle: the home takes releases, holds and opens in this order, and of one kind
the local core's first, then the spire port's, then the mesh port's (R49). Other bundles come first. -/
def versionRank (s : State) (a : Agent) : Nat :=
  match nextVersionOp s a with
  | none => 0
  | some (kind, name) =>
    1 + 3 * kind +
      (match a, findVb s name with
       | .core t c, some (t', c', _) => if t ≠ t' then 2 else if c = c' then 0 else if c ^^^ 32 = c' then 1 else 2
       | _, _ => 2)

/-- The supervisor cores that are out of reset. -/
def liveSups (s : State) : List (BitVec 3) := towerList.filter (fun t => !(getTower s t).sup.inReset)

/-- Is some versioned buffer enabled? -/
def anyBuffer (s : State) : Bool := s.cores.any (fun c => c.2.vbd.any vbOn)

/-- The bundles and macros of all cores in a cycle, in order: compute cores, then supervisor cores, and last, kind by kind, the
version operations. -/
def orderedIssue (s : State) : List Move :=
  let l := (liveCores s).map (fun x => (Agent.core x.1 x.2.1, issueMoves s x)) ++
    ((liveSups s).filter (clockTicks s)).map (fun t => (Agent.sup t, [.bundleIssue (.sup t)]))
  if anyBuffer s then
    let r := l.map (fun x => (versionRank s x.1, x.2))
    (List.range 10).flatMap (fun n => (r.filter (fun x => decide (x.1 = n))).flatMap Prod.snd)
  else l.flatMap Prod.snd

/-- Everything in the present cycle that may be delayed. -/
def delayMoves (s : State) : List Move :=
  memoryMoves s ++ orderedIssue s

/-- Everything that is tried in the present cycle, in order. -/
def cycleMoves (s : State) : List Move :=
  [.frameStart] ++ windowMoves s ++ towerList.flatMap (towerMoves s) ++ flightMoves s ++
    (liveCores s).flatMap coreMoves ++ (liveSups s).map .supervisorTrapEntry ++
    freeMoves (s.free + 1536 + s.nextId) (delayMoves s) ++ (if anyBuffer s then [.serveVersions] else [])

/-- A bundle whose MLS accesses meet bank conflicts (R33; DESIGN CHOICE, log 104). -/
def issueSlow (a : Agent) (s : State) : Host.Outcome State Fault Refusal :=
  match execBundleIssue a { s with slow := true } with
  | .next t => .next { t with slow := false }
  | o => o

/-- Try a step: the meaning of its row. -/
def runMove (m : Move) (s : State) : Host.Outcome State Fault Refusal :=
  match m with
  | .frameStart => execFrameStart s
  | .grantWindow t cluster col => execGrantWindow t cluster col s
  | .releaseTick t => execReleaseTick t s
  | .streamTick t slot => execStreamTick t slot s
  | .streamCheckPoint t slot => execStreamCheckPoint t slot s
  | .streamEviction t slot => execStreamEviction t slot s
  | .streamRestore t slot => execStreamRestore t slot s
  | .watchTrigger t => execWatchTrigger t s
  | .taskLaunch t k bank => execTaskLaunch t k bank s
  | .gangBackoffExpiry t num => execGangBackoffExpiry t num s
  | .pop t c i j delay => execPop t c i j delay s
  | .drainClaimCommit t cluster => execDrainClaimCommit t cluster s
  | .spireRetirement t spire => execSpireRetirement t spire s
  | .bufferMigration t spire => execBufferMigration t spire s
  | .heldTrapRetry t => execHeldTrapRetry t s
  | .evictionRetry t => execEvictionRetry t s
  | .otwBusyClear t => execOtwBusyClear t s
  | .thermalStepTimer t => execThermalStepTimer t s
  | .thermalReleaseTimer t => execThermalReleaseTimer t s
  | .access id g => execAccessPerformedAtHome id g .none s
  | .copyIssue job => execCopyIssue job s
  | .chunkLand job chunk => execChunkLand job chunk .none s
  | .vsealPerform id => execVsealPerform id s
  | .serveVersions => .next (serveAll s)
  | .pageInSwitch k => execPageInSwitch k s
  | .evictionSwitch k => execEvictionSwitch k s
  | .pagePart k line => .next (pagePart k line s)
  | .framePart t k line => .next (framePart t k line s)
  | .frameLand t k => .next (frameLand t k s)
  | .busEpochStart t layer cluster => execBusEpochStart t layer cluster s
  | .busAhead t layer cluster => .next (busAhead t layer cluster s)
  | .backgroundZeroing unit => execBackgroundZeroing unit s
  | .xinvDone => execXinvDone s
  | .budgetTrap t c => execBudgetTrap t c s
  | .preemption t c => execPreemption t c s
  | .suspend t c => execCfsynSuspend t c s
  | .kill t c => .next (takeKill s t c)
  | .macroBegin t c => execMacroBegin t c s
  | .bundleIssue a => execBundleIssue a s
  | .bundleSlow a => issueSlow a s
  | .chunkPart job chunk line => .next (partChunk s job chunk line)
  | .walkStep id => .next (walkStep s id)
  | .supervisorTrapEntry t => execSupervisorTrapEntry t s

/-- The next cycle begins: CYC advances and its steps are drawn up (DESIGN CHOICE, log 99). -/
def nextCycle (s : State) : State :=
  let s1 := { s with pkg := { s.pkg with cyc := s.pkg.cyc + 1 } }
  { s1 with moves := cycleMoves s1, free := s1.free + 1536 + 70 * s1.nextId + (delayMoves s1).length }

end Sys2Proof.Machine
end

