-- ==== Sys2Proof/Machine/Place.lean ====
section
/-!
DEFINITION. A program placed from outside: a task on core 0 of tower 0, the page of its code in that core's translation cache,
and the bundle in tower memory (DESIGN CHOICE, log 54). The package itself starts with no program: bring-up, Malaskun and the
host load and launch what runs (spec 19_platform.md R394).
-/
namespace Sys2Proof.Machine

/-- The core that a placed program runs on. -/
def placeAgent : Agent := .core 0 0

/-- The address of a placed bundle, virtual and in the tower memory of tower 0: behind the reserved low region. -/
def placeAdr : Nat := 0x1000_0000

/-- The translation of the placed page: 64 KiB of tower 0, executable, at the same address. -/
def placeEntry : TcEntry :=
  { ctx := 1, size := 0, vpage := BitVec.ofNat 36 (placeAdr / 2 ^ 16), leaf := BitVec.ofNat 64 (2 ^ 63 + placeAdr / 2 ^ 16 * 2 ^ 16 + 2 ^ 15 + 2 ^ 13) }

/-- A task that has just been placed, of context 1, with no budget of its own. -/
def placeTaskBlank : Task := { Task.blank with num := 1, ctx := 1, placedOnce := true, pc := BitVec.ofNat 64 placeAdr }

/-- `s` with a bundle whose words are `w` where the next step fetches: 100 bytes, the longest bundle, zeros above the bits given. -/
def placeWord (s : State) (nbits w : Nat) : State :=
  let s1 := writeBytes s (tmFlat 0 placeAdr) (natBytes 100 (w % 2 ^ nbits))
  let s2 := modTower s1 0 (fun t => { t with bud := mapPut t.bud 1 0x1_0000 })
  let s3 := modCore s2 placeAgent (fun c => { c with live := true, task := placeTaskBlank, tc := [placeEntry] })
  { s3 with inputs := [], moves := [.bundleIssue placeAgent] }

end Sys2Proof.Machine
end

