-- ==== Sys2Proof/Machine/Step.lean ====
section
/-!
DEFINITION. One step of the package: what the outside does next, if anything; else the next step of the present cycle; else the
next cycle begins (DESIGN CHOICE, log 7, 8).
-/
namespace Sys2Proof.Machine

/-- One step. -/
def step (s : State) : Host.Outcome State Fault Refusal :=
  match s.inputs, s.moves with
  | i :: l, _ => exec i { s with inputs := l }
  | [], m :: l => runMove m { s with moves := l }
  | [], [] => .next (nextCycle s)

/-- The state with a program's instruction where the very next step fetches it (DESIGN CHOICE, log 54). -/
def State.withFetchWord (s : State) (nbits w : Nat) : State := placeWord s nbits w

end Sys2Proof.Machine
end

