-- ==== Sys2Proof/Safety.lean ====
section
/-!
DEFINITION. The terms in which claims are made: when a syllable may run, what a safe run is, and what two states share.
-/
namespace Sys2Proof.Machine

/-! ### When a syllable runs -/

/-- A syllable may run in the bundle of the agent `cur`: its predicate is true (R222), it has no decode fault (R227), and its
operands can be read: no access, copy, command, launch or macro still owes one (R33, R35), and none is poisoned (R378). -/
def Ready (i : Instr) (s : State) : Prop :=
  predicateHolds (curTask s) i.head = true ∧ decodeFault none s i = none ∧ operandHold s i = none

/-! ### What states share -/

/-- Does an address show contents of the instruction caches, which no rule fixes (R16; DESIGN CHOICE, log 13)? -/
def showsCache (a : Nat) : Bool := inPool a && decide (poolShare (bits a 27 0) = .caches)

/-- Every byte of every address space reads the same. -/
def SameBytes (s t : State) : Prop := ∀ a, showsCache a = false → readByte t a = readByte s a

/-- Every byte outside some ranges of addresses reads the same. -/
def SameBytesBut (ranges : List (Nat × Nat)) (s t : State) : Prop :=
  ∀ a, showsCache a = false → (∀ r ∈ ranges, a < r.1 ∨ r.1 + r.2 ≤ a) → readByte t a = readByte s a

/-- Every core but the acting one is the same, and so is what the acting core holds beside its task's registers. -/
def SameCores (s t : State) : Prop :=
  t.cur = s.cur ∧ (∀ a, coreKey a ≠ coreKey s.cur → getCore t a = getCore s a) ∧
    getCore t s.cur = { getCore s s.cur with task := (getCore t s.cur).task }

/-- Two sets of registers are the same now: each of them, but for the results that are still on their way. -/
def SameRegs (k k' : Task) : Prop := k' = { k with due := k'.due }

/-- After all results on their way have arrived, every register is the same, but for the scalar register `d`. -/
def SameButScalar (d : Nat) (k k' : Task) : Prop :=
  let x := commitAll k
  let y := commitAll k'
  (∀ r, r ≠ d → scalarReg y r = scalarReg x r) ∧ y.v = x.v ∧ y.q = x.q ∧ y.c = x.c ∧ y.t = x.t ∧ y.a = x.a ∧
    y.b = x.b ∧ y.h = x.h ∧ y.fps = x.fps ∧ y.loops = x.loops ∧ y.agu = x.agu ∧ y.arr = x.arr

/-- After all results on their way have arrived, every register is the same, but for the flag `n`. -/
def SameButFlag (n : Nat) (k k' : Task) : Prop :=
  let x := commitAll k
  let y := commitAll k'
  (∀ r, r ≠ n → flagReg y r = flagReg x r) ∧ y.s = x.s ∧ y.v = x.v ∧ y.q = x.q ∧ y.t = x.t ∧ y.a = x.a ∧
    y.b = x.b ∧ y.h = x.h ∧ y.fps = x.fps ∧ y.loops = x.loops ∧ y.agu = x.agu ∧ y.arr = x.arr

/-- No tower, nothing of the package and nothing in flight changes. -/
def SameUnits (s t : State) : Prop :=
  t.towers = s.towers ∧ t.pkg = s.pkg ∧ t.tasks = s.tasks ∧ t.gangs = s.gangs ∧ t.acc = s.acc ∧ t.jobs = s.jobs ∧
    t.seals = s.seals ∧ t.buses = s.buses ∧ t.zero = s.zero ∧ t.owner = s.owner ∧ t.bad = s.bad

/-- The scalar register that an instruction of the scalar slots names as its destination. -/
def scalarDest : Instr → Option (BitVec 7)
  | .add _ _ f => some f.d
  | .sub _ _ f => some f.d
  | .addi _ _ f => some f.d
  | .mul _ _ f => some f.d
  | .mulh _ _ f => some f.d
  | .mulhu _ _ f => some f.d
  | .div _ f => some f.d
  | .divu _ f => some f.d
  | .rem _ f => some f.d
  | .remu _ f => some f.d
  | .addpc _ _ f => some f.d
  | .and _ _ f => some f.d
  | .or _ _ f => some f.d
  | .xor _ _ f => some f.d
  | .andn _ _ f => some f.d
  | .andi _ _ f => some f.d
  | .ori _ _ f => some f.d
  | .xori _ _ f => some f.d
  | .shl _ _ f => some f.d
  | .shr _ _ f => some f.d
  | .sar _ _ f => some f.d
  | .shli _ _ f => some f.d
  | .shri _ _ f => some f.d
  | .sari _ _ f => some f.d
  | .fshl _ _ f => some f.d
  | .fshr _ _ f => some f.d
  | .sel _ _ f => some f.d
  | .min _ _ f => some f.d
  | .max _ _ f => some f.d
  | .minu _ _ f => some f.d
  | .maxu _ _ f => some f.d
  | .bfx _ _ f => some f.d
  | .bfxu _ _ f => some f.d
  | .bfi _ _ f => some f.d
  | .clz _ _ f => some f.d
  | .ctz _ _ f => some f.d
  | .popc _ _ f => some f.d
  | .brev _ _ f => some f.d
  | .bswap _ _ f => some f.d
  | .li _ _ f => some f.d
  | .lih _ _ f => some f.d
  | .phash _ f => some f.d
  | _ => none

/-- The flag that an instruction of the scalar or the control slots names as its destination. -/
def flagDest : Instr → Option Nat
  | .cmp _ _ f => some f.f.toNat
  | .cmpi _ _ f => some (f.d.toNat % 16)
  | .vany _ f => some f.f.toNat
  | .vall _ f => some f.f.toNat
  | .fop _ f => some f.f.toNat
  | _ => none

/-! ### Vector lanes -/

/-- Lane `j` of a vector register at a plain type (R198). -/
def laneAt (ty : BitVec 4) (v : VReg) (j : Nat) : Nat := v.toNat / 2 ^ (tyBits ty * j) % 2 ^ tyBits ty

/-- Lane `j` of a source of a vector syllable. -/
def srcLane (s : State) (ty : BitVec 4) (r : BitVec 10) (j : Nat) : Nat := laneAt ty (vectorIn (curTask s) r) j

/-- Does lane `j` act under the mask of a vector syllable (R296)? -/
def laneActs (s : State) (f : VecF) (j : Nat) : Bool := !masked f || (predReg (curTask s) (f.s3.toNat % 16)).getLsbD j

/-- `t` is `s` with a vector result of latency `lat` on its way to the register, unless it goes only to the ring, and to the
ring of VEC: lane `j` is `g j` where `act j` holds, and the old lane elsewhere (R226, R296). -/
def VecResult (lat : Nat) (f : VecF) (s t : State) (act : Nat → Bool) (g : Nat → Nat) : Prop :=
  ∃ x fl, t = pushDue s lat 4 (.vector (if f.nwb = 1 then none else some f.dst.toNat) x) (some .vec) fl ∧
    ∀ j, j < lanes f.ty →
      laneAt f.ty x j = if act j then g j % 2 ^ tyBits f.ty else laneAt f.ty (oldDst (curTask s) f) j

/-- The fields of an instruction of the vector slot. -/
def vecForm : Instr → Option (Head × VecF)
  | .vadd h f => some (h, f)
  | .vsub h f => some (h, f)
  | .vmul h f => some (h, f)
  | .vfma h f => some (h, f)
  | .vmin h f => some (h, f)
  | .vmax h f => some (h, f)
  | .vabs h f => some (h, f)
  | .vneg h f => some (h, f)
  | .vadds h f => some (h, f)
  | .vsubs h f => some (h, f)
  | .vmulh h f => some (h, f)
  | .vand h f => some (h, f)
  | .vor h f => some (h, f)
  | .vxor h f => some (h, f)
  | .vandn h f => some (h, f)
  | .vshl h f => some (h, f)
  | .vshr h f => some (h, f)
  | .vsar h f => some (h, f)
  | .vpopc h f => some (h, f)
  | .vcvt h f => some (h, f)
  | .vpack h f => some (h, f)
  | .vunpk h f => some (h, f)
  | .vrsum h f => some (h, f)
  | .vrmax h f => some (h, f)
  | .vrmin h f => some (h, f)
  | .vrand h f => some (h, f)
  | .vror h f => some (h, f)
  | .vcmp h f => some (h, f)
  | .vqand h f => some (h, f)
  | .vqor h f => some (h, f)
  | .vqnot h f => some (h, f)
  | .vsel h f => some (h, f)
  | .vperm h f => some (h, f)
  | .vbcast h f => some (h, f)
  | .vbcastLn h f => some (h, f)
  | .vmov h f => some (h, f)
  | .vins h f => some (h, f)
  | .vext h f => some (h, f)
  | .vzps h f => some (h, f)
  | .vplx h f => some (h, f)
  | .vpli h f => some (h, f)
  | .vexp2 h f => some (h, f)
  | .vrcp h f => some (h, f)
  | .vmrg h f => some (h, f)
  | _ => none

/-- The instructions of the vector slot whose destination is a predicate register (R300). -/
def writesPred : Instr → Bool
  | .vcmp _ _ => true
  | .vqand _ _ => true
  | .vqor _ _ => true
  | .vqnot _ _ => true
  | _ => false

/-! ### The affine generator -/

/-- The indices of the generator as one number, dimension 0 fastest: each index counts in the base of its own count. -/
def mixed : List Nat → List (BitVec 16) → Nat
  | i :: is, n :: ns => i + n.toNat * mixed is ns
  | _, _ => 0

/-- The number of steps of a run. -/
def runLength : List (BitVec 16) → Nat
  | [] => 1
  | n :: ns => n.toNat * runLength ns

/-! ### Commands -/

/-- The block that an endpoint word of a command names is there, sound and allowed (R277, R329, R378). -/
def BlockAt (s : State) (k : Kind) (n align : Nat) (own supGs : Bool) (e : Word) (x : CopyEnd) : Prop :=
  endPending s e = false ∧ endPoison s e 10 = none ∧ checkBlock s 10 k n align own supGs e = .ok x

/-- The command leaves its bundle: one job of one chunk, with its operands, blocks and reply, its token pending (R281, R329). -/
def Issues (i : Instr) (kind : CmdKind) (f : CmdF) (block block2 : Option CopyEnd) (s : State) : Prop :=
  ∃ c : Cmd, exec i s = .next (startJob s (mkJob s f.tok.toNat (.cmd c) 1 false)) ∧ c.kind = kind ∧
    c.a = scalarIn (curTask s) f.a ∧ c.b = scalarIn (curTask s) f.b ∧ c.c = scalarIn (curTask s) f.c ∧
    c.d = scalarIn (curTask s) f.d ∧ c.block = (block.map CopyEnd.adr).getD 0 ∧
    c.block2 = (block2.map CopyEnd.adr).getD 0 ∧ c.ends = block.toList ++ block2.toList ∧ c.ctx = (curTask s).ctx ∧ c.posted = false ∧
    (∀ tw k, s.cur = .core tw k →
      c.reply = (if f.x = 0x3FFF then none else some (lsFlat tw k (64 * f.x.toNat))) ∧ c.crpy = none) ∧
    (∀ tw, s.cur = .sup tw → c.reply = none ∧ c.crpy = some (f.x.toNat % 8))

/-! ### Safe runs -/

/-- A state is sound: its memory has the canonical form. -/
def Sound (s : State) : Prop := Memory.wf s.mem = true

/-- A run of `n` steps is safe: every step answers a next state, and every state on the way is sound. A fault of a task is no
unsafe step: it freezes the task's core, as the spec says. -/
def SafeRun : Nat → State → Prop
  | 0, s => Sound s
  | n + 1, s => Sound s ∧ ∃ t, step s = .next t ∧ SafeRun n t

end Sys2Proof.Machine
end

