-- ==== Sys2Proof/Certificates/Slice0/Obligations.lean ====
section
/-!
DEFINITION. The statements for the provers.
-/
open Sys2Proof Sys2Proof.Machine

/-! ### Scalar slots -/

/-- R241 to R243: sums, differences, products and quotients, as numbers modulo 2^64. -/
def Obligations.ArithmeticResults : Prop :=
  ∀ (p : Port) (h : Head) (s : State),
    let k := curTask s
    let out := fun (lat : Nat) (d : BitVec 7) (x : Word) => pushScalar s lat p.slot d.toNat x (some (portRing p))
    let outA := fun (d : BitVec 7) (x : Word) => pushScalar s 24 1 d.toNat x (some .sca)
    (∀ f : SReg,
      let a := scalarIn k f.a
      let b := scalarIn k f.b
      (Ready (.add p h f) s → exec (.add p h f) s = .next (out 1 f.d (word (a.toNat + b.toNat * 2 ^ (f.x.toNat % 8))))) ∧
      (Ready (.sub p h f) s →
        exec (.sub p h f) s = .next (out 1 f.d (BitVec.ofInt 64 (a.toNat - b.toNat * 2 ^ (f.x.toNat % 8))))) ∧
      (Ready (.mul p h f) s → exec (.mul p h f) s = .next (out 3 f.d (word (a.toNat * b.toNat)))) ∧
      (Ready (.mulh p h f) s → exec (.mulh p h f) s = .next (out 3 f.d (BitVec.ofInt 64 ((a.toInt * b.toInt) / 2 ^ 64)))) ∧
      (Ready (.mulhu p h f) s → exec (.mulhu p h f) s = .next (out 3 f.d (word (a.toNat * b.toNat / 2 ^ 64)))) ∧
      (Ready (.div h f) s → ∃ q : Word, exec (.div h f) s = .next (outA f.d q) ∧
        q.toInt = if b = 0 then -1 else if a.toInt = -2 ^ 63 ∧ b.toInt = -1 then -2 ^ 63 else a.toInt.tdiv b.toInt) ∧
      (Ready (.divu h f) s → ∃ q : Word, exec (.divu h f) s = .next (outA f.d q) ∧
        q.toNat = if b = 0 then 2 ^ 64 - 1 else a.toNat / b.toNat) ∧
      (Ready (.rem h f) s → ∃ q : Word, exec (.rem h f) s = .next (outA f.d q) ∧
        q.toInt = if b = 0 then a.toInt else a.toInt - b.toInt * a.toInt.tdiv b.toInt) ∧
      (Ready (.remu h f) s → ∃ q : Word, exec (.remu h f) s = .next (outA f.d q) ∧
        q.toNat = if b = 0 then a.toNat else a.toNat % b.toNat)) ∧
    (∀ f : SImm,
      (Ready (.addi p h f) s →
        exec (.addi p h f) s = .next (out 1 f.d (BitVec.ofInt 64 ((scalarIn k f.a).toInt + f.imm.toInt)))) ∧
      (Ready (.addpc p h f) s → exec (.addpc p h f) s = .next (out 1 f.d (BitVec.ofInt 64 (k.pc.toInt + f.imm.toInt)))))

/-- R241, R242, R244: logic, shifts and funnel shifts, bit by bit. -/
def Obligations.LogicAndShiftResults : Prop :=
  ∀ (p : Port) (h : Head) (s : State),
    let k := curTask s
    let gives := fun (i : Instr) (d : BitVec 7) (bitOf : Nat → Bool) =>
      Ready i s → ∃ x : Word, exec i s = .next (pushScalar s 1 p.slot d.toNat x (some (portRing p))) ∧
        ∀ n, n < 64 → x.getLsbD n = bitOf n
    (∀ f : SReg,
      let a := scalarIn k f.a
      let b := scalarIn k f.b
      let m := b.toNat % 64
      let w := if f.x.getLsbD 6 then f.x.toNat % 64 else (scalarIn k f.c).toNat % 64
      gives (.and p h f) f.d (fun n => a.getLsbD n && b.getLsbD n) ∧
      gives (.or p h f) f.d (fun n => a.getLsbD n || b.getLsbD n) ∧
      gives (.xor p h f) f.d (fun n => a.getLsbD n != b.getLsbD n) ∧
      gives (.andn p h f) f.d (fun n => a.getLsbD n && !b.getLsbD n) ∧
      gives (.shl p h f) f.d (fun n => decide (m ≤ n) && a.getLsbD (n - m)) ∧
      gives (.shr p h f) f.d (fun n => a.getLsbD (n + m)) ∧
      gives (.sar p h f) f.d (fun n => if n + m < 64 then a.getLsbD (n + m) else a.getLsbD 63) ∧
      gives (.fshl p h f) f.d (fun n => if w ≤ n then a.getLsbD (n - w) else b.getLsbD (64 + n - w)) ∧
      gives (.fshr p h f) f.d (fun n => if n + w < 64 then b.getLsbD (n + w) else a.getLsbD (n + w - 64))) ∧
    (∀ f : SImm,
      let a := scalarIn k f.a
      let m := f.imm.toNat % 64
      gives (.andi p h f) f.d (fun n => a.getLsbD n && f.imm.getLsbD (min n 34)) ∧
      gives (.ori p h f) f.d (fun n => a.getLsbD n || f.imm.getLsbD (min n 34)) ∧
      gives (.xori p h f) f.d (fun n => a.getLsbD n != f.imm.getLsbD (min n 34)) ∧
      gives (.shli p h f) f.d (fun n => decide (m ≤ n) && a.getLsbD (n - m)) ∧
      gives (.shri p h f) f.d (fun n => a.getLsbD (n + m)) ∧
      gives (.sari p h f) f.d (fun n => if n + m < 64 then a.getLsbD (n + m) else a.getLsbD 63))

/-- R241, R245, R258, R259: compares write one flag at L = 1, with the old flag combined; selects and extremes; votes over the lanes
of a predicate, and the flag operations, at L = 1. -/
def Obligations.CompareAndSelectResults : Prop :=
  (∀ (p : Port) (h : Head) (s : State),
     let k := curTask s
     let out := fun (d : BitVec 7) (x : Word) => pushScalar s 1 p.slot d.toNat x (some (portRing p))
     (∀ f : SReg,
       let a := scalarIn k f.a
       let b := scalarIn k f.b
       (Ready (.cmp p h f) s → ∃ c : Bool, exec (.cmp p h f) s = .next (pushDue s 1 p.slot (.flag f.f.toNat c)) ∧
         ∃ cond : Bool,
           (f.x.toNat % 8 = 0 → cond = decide (a.toNat = b.toNat)) ∧ (f.x.toNat % 8 = 1 → cond = decide (a.toNat ≠ b.toNat)) ∧
           (f.x.toNat % 8 = 2 → cond = decide (a.toInt < b.toInt)) ∧ (f.x.toNat % 8 = 3 → cond = decide (a.toInt ≥ b.toInt)) ∧
           (f.x.toNat % 8 = 4 → cond = decide (a.toNat < b.toNat)) ∧ (f.x.toNat % 8 = 5 → cond = decide (a.toNat ≥ b.toNat)) ∧
           (f.x.toNat % 8 = 6 → cond = decide (a &&& b ≠ 0)) ∧
           (f.x.toNat % 8 = 7 → cond = decide (a &&& b = 0)) ∧
           (f.x.toNat / 8 % 4 = 0 → c = cond) ∧ (f.x.toNat / 8 % 4 = 1 → c = (flagReg k f.f.toNat && cond)) ∧
           (f.x.toNat / 8 % 4 = 2 → c = (flagReg k f.f.toNat || cond))) ∧
       (Ready (.sel p h f) s → exec (.sel p h f) s = .next (out f.d (if flagReg k f.f.toNat then a else b))) ∧
       (Ready (.min p h f) s → ∃ x : Word, exec (.min p h f) s = .next (out f.d x) ∧ x.toInt = min a.toInt b.toInt) ∧
       (Ready (.max p h f) s → ∃ x : Word, exec (.max p h f) s = .next (out f.d x) ∧ x.toInt = max a.toInt b.toInt) ∧
       (Ready (.minu p h f) s → ∃ x : Word, exec (.minu p h f) s = .next (out f.d x) ∧ x.toNat = min a.toNat b.toNat) ∧
       (Ready (.maxu p h f) s → ∃ x : Word, exec (.maxu p h f) s = .next (out f.d x) ∧ x.toNat = max a.toNat b.toNat)) ∧
     (∀ f : SImm,
       let a := scalarIn k f.a
       let b : Word := f.imm.signExtend 64
       Ready (.cmpi p h f) s → ∃ c : Bool, exec (.cmpi p h f) s = .next (pushDue s 1 p.slot (.flag (f.d.toNat % 16) c)) ∧
         (f.d.toNat / 16 = 0 → c = decide (a.toInt = f.imm.toInt)) ∧ (f.d.toNat / 16 = 1 → c = decide (a.toInt ≠ f.imm.toInt)) ∧
         (f.d.toNat / 16 = 2 → c = decide (a.toInt < f.imm.toInt)) ∧ (f.d.toNat / 16 = 3 → c = decide (a.toInt ≥ f.imm.toInt)) ∧
         (f.d.toNat / 16 = 4 → c = decide (a.toNat < b.toNat)) ∧ (f.d.toNat / 16 = 5 → c = decide (a.toNat ≥ b.toNat)) ∧
         (f.d.toNat / 16 = 6 → c = decide (a &&& b ≠ 0)) ∧ (f.d.toNat / 16 = 7 → c = decide (a &&& b = 0)))) ∧
  (∀ (h : Head) (f : SReg) (s : State),
     let k := curTask s
     let qa := predReg k (f.a.toNat % 16)
     let qb := predReg k (f.b.toNat % 16)
     let n := 2048 / 2 ^ (f.x.toNat % 4)
     let ca := flagReg k (f.a.toNat % 16)
     let cb := flagReg k (f.b.toNat % 16)
     let op := f.x.toNat % 16
     (Ready (.vany h f) s → ∃ c : Bool, exec (.vany h f) s = .next (pushDue s 1 0 (.flag f.f.toNat c)) ∧
       (c = true ↔ ∃ i, i < n ∧ qa.getLsbD i = true ∧ (f.x.getLsbD 2 = true → qb.getLsbD i = true))) ∧
     (Ready (.vall h f) s → ∃ c : Bool, exec (.vall h f) s = .next (pushDue s 1 0 (.flag f.f.toNat c)) ∧
       (c = true ↔ ∀ i, i < n → (f.x.getLsbD 2 = true → qb.getLsbD i = true) → qa.getLsbD i = true)) ∧
     (Ready (.fop h f) s → op ≤ 10 ∧ ∃ c : Bool, exec (.fop h f) s = .next (pushDue s 1 0 (.flag f.f.toNat c)) ∧
       (op = 0 → c = (ca && cb)) ∧ (op = 1 → c = (ca || cb)) ∧ (op = 2 → c = (ca != cb)) ∧ (op = 3 → c = (ca && !cb)) ∧
       (op = 4 → c = (ca || !cb)) ∧ (op = 5 → c = ca) ∧ (op = 6 → c = !ca) ∧ (op = 7 → c = true) ∧ (op = 8 → c = false) ∧
       (op = 9 → c = decide (scalarIn k f.c ≠ 0)) ∧ (op = 10 → c = decide (scalarIn k f.c = 0))))

/-- R246, R247, whole: the opcodes, the results of the bit fields, counts and reversals, bit by bit, and the faults of their
descriptors and of the fields that must be zero. -/
def Obligations.BitFieldAndCountResults : Prop :=
  (∀ (p : Port) (w : Word),
     let is := fun (opc : Nat) (i : Instr) => w.toNat / 2 ^ 56 = opc → decodeSyllable p.slot w = some i
     is 0x28 (.bfx p (.ofWord w) (.ofWord w)) ∧ is 0x29 (.bfxu p (.ofWord w) (.ofWord w)) ∧ is 0x2A (.bfi p (.ofWord w) (.ofWord w)) ∧
       is 0x30 (.clz p (.ofWord w) (.ofWord w)) ∧ is 0x31 (.ctz p (.ofWord w) (.ofWord w)) ∧
       is 0x32 (.popc p (.ofWord w) (.ofWord w)) ∧ is 0x33 (.brev p (.ofWord w) (.ofWord w)) ∧
       is 0x34 (.bswap p (.ofWord w) (.ofWord w))) ∧
  (∀ (p : Port) (h : Head) (f : SReg) (s : State),
     let k := curTask s
     let out := fun (d : BitVec 7) (x : Word) => pushScalar s 1 p.slot d.toNat x (some (portRing p))
     let a := scalarIn k f.a
     let b := scalarIn k f.b
     let pos := f.x.toNat % 64
     let len := f.x.toNat / 64 % 64 + 1
     (Ready (.bfx p h f) s → pos + len ≤ 64 ∧ ∃ x : Word, exec (.bfx p h f) s = .next (out f.d x) ∧
       ∀ n, n < 64 → x.getLsbD n = a.getLsbD (pos + min n (len - 1))) ∧
     (Ready (.bfxu p h f) s → pos + len ≤ 64 ∧ ∃ x : Word, exec (.bfxu p h f) s = .next (out f.d x) ∧
       ∀ n, n < 64 → x.getLsbD n = (decide (n < len) && a.getLsbD (pos + n))) ∧
     (Ready (.bfi p h f) s → pos + len ≤ 64 ∧ ∃ x : Word, exec (.bfi p h f) s = .next (out f.d x) ∧
       ∀ n, n < 64 → x.getLsbD n = if pos ≤ n ∧ n < pos + len then b.getLsbD (n - pos) else a.getLsbD n) ∧
     (Ready (.clz p h f) s → ∃ n : Nat, exec (.clz p h f) s = .next (out f.d (word n)) ∧ n ≤ 64 ∧
       (∀ m, m < n → a.getLsbD (63 - m) = false) ∧ (n < 64 → a.getLsbD (63 - n) = true)) ∧
     (Ready (.ctz p h f) s → ∃ n : Nat, exec (.ctz p h f) s = .next (out f.d (word n)) ∧ n ≤ 64 ∧
       (∀ m, m < n → a.getLsbD m = false) ∧ (n < 64 → a.getLsbD n = true)) ∧
     (Ready (.popc p h f) s →
       exec (.popc p h f) s = .next (out f.d (word ((List.range 64).filter (fun n => a.getLsbD n)).length))) ∧
     (Ready (.brev p h f) s → ∃ x : Word, exec (.brev p h f) s = .next (out f.d x) ∧
       ∀ n, n < 64 → x.getLsbD n = a.getLsbD (63 - n)) ∧
     (Ready (.bswap p h f) s → ∃ x : Word, exec (.bswap p h f) s = .next (out f.d x) ∧
       ∀ j n, j < 8 → n < 8 → x.getLsbD (8 * j + n) = a.getLsbD (8 * (7 - j) + n)) ∧
     (predicateHolds k h = true → hasFeature s (slotFeature p.slot) = true →
       let faults := fun (i : Instr) => exec i s = .next (takeFault s s.cur (bundleFault s .illegalOperand p.slot))
       (4096 ≤ f.x.toNat ∨ 64 < pos + len → faults (.bfx p h f) ∧ faults (.bfxu p h f) ∧ faults (.bfi p h f)) ∧
       (f.b ≠ 0 ∨ f.c ≠ 0 ∨ f.f ≠ 0 → faults (.bfx p h f) ∧ faults (.bfxu p h f)) ∧ (f.c ≠ 0 ∨ f.f ≠ 0 → faults (.bfi p h f)) ∧
       (f.b ≠ 0 ∨ f.c ≠ 0 ∨ f.f ≠ 0 ∨ f.x ≠ 0 →
         faults (.clz p h f) ∧ faults (.ctz p h f) ∧ faults (.popc p h f) ∧ faults (.brev p h f) ∧ faults (.bswap p h f))))

/-- R248: constants, bit by bit. R249: PHASH hashes the message the rule lays out, byte by byte, and reads 8 bytes of SHAKE256
back little-endian. -/
def Obligations.ConstantAndHashResults : Prop :=
  (∀ (p : Port) (h : Head) (s : State),
     let k := curTask s
     let out := fun (d : BitVec 7) (x : Word) => pushScalar s 1 p.slot d.toNat x (some (portRing p))
     ∀ f : SLong,
       (Ready (.li p h f) s → ∃ x : Word, exec (.li p h f) s = .next (out f.d x) ∧ x.toInt = f.imm.toInt) ∧
       (Ready (.lih p h f) s → ∃ x : Word, exec (.lih p h f) s = .next (out f.d x) ∧
         ∀ n, n < 64 → x.getLsbD n = if n < 42 then (scalarIn k f.d).getLsbD n else f.imm.getLsbD (n - 42))) ∧
  (∀ (h : Head) (f : SReg) (s : State), Ready (.phash h f) s →
     ∃ msg : List Byte, msg.length = 74 ∧
       exec (.phash h f) s = .next (pushScalar s 12 1 f.d.toNat (word (leNat (shake256 msg 8))) (some .sca)) ∧
       (∀ j, j < 8 → msg.getD j 0 = (scalarIn (curTask s) f.a).extractLsb' (8 * j) 8) ∧
       (∀ j, j < 2 → msg.getD (8 + j) 0 = (scalarIn (curTask s) f.c).extractLsb' (8 * j) 8) ∧
       ∀ j m, j < 16 → m < 4 →
         msg.getD (10 + 4 * j + m) 0 = (scalarCode (curTask s) (f.b.toNat + j / 2)).extractLsb' (32 * (j % 2) + 8 * m) 8)

/-- The frame of the instructions with a scalar result: no byte of memory, no other core and no unit changes, and no register
at once; when the results on their way have come, only the named register differs (R240). The frame of the instructions with
a flag result: only the named flag differs once it has come (R240, R245, R258, R259). -/
def Obligations.ScalarAndFlagFrame : Prop :=
  (∀ (i : Instr) (d : BitVec 7) (s t : State), scalarDest i = some d → Ready i s → exec i s = .next t →
     SameBytes s t ∧ t.mem = s.mem ∧ SameCores s t ∧ SameUnits s t ∧ SameRegs (curTask s) (curTask t) ∧
       SameButScalar d.toNat (curTask s) (curTask t)) ∧
  (∀ (i : Instr) (n : Nat) (s t : State), flagDest i = some n → Ready i s → exec i s = .next t →
     SameBytes s t ∧ t.mem = s.mem ∧ SameCores s t ∧ SameUnits s t ∧ SameRegs (curTask s) (curTask t) ∧
       SameButFlag n (curTask s) (curTask t))

/-- R226, R237, R239, R240: a result of any kind is on its way for L bundles: no bundle before sees it, and the bundle that issues L
bundles later finds it written, behind every result that falls before it, whatever else is on its way. What a written result changes:
its register, s0 and c0 never, its latch ring, and the flags it raises. -/
def Obligations.ResultDelivery : Prop :=
  (∀ (s : State) (lat slot : Nat) (d : Dest) (ring : Option Ring) (flags : BitVec 3) (bad : Option Word), 0 < lat →
    let k0 := curTask s
    let k := curTask (pushDue s lat slot d ring flags bad)
    let x := mkDue k0 lat slot d ring flags bad
    let seen := fun (k : Task) (n : Nat) => commitDue { k with issued := k.issued + n }
    (∀ n, n < lat → seen k n = { seen k0 n with due := (seen k0 n).due ++ [x] }) ∧
      ((∀ y ∈ k0.due, y.due ≤ k0.issued + lat → dueBefore x y = false) → seen k lat = writeDue (seen k0 lat) x)) ∧
  (∀ (t : Task) (x : Due),
    let u := writeDue t x
    u.fps = t.fps ||| x.flags ∧
    (∀ r v, x.dst = .scalar r v → u = { t with s := u.s, rings := u.rings, fps := u.fps, poison := u.poison } ∧
      (∀ q, scalarReg u q = if q = r ∧ r ≠ 0 then v else scalarReg t q) ∧
      (x.ring = none → u.rings = t.rings) ∧
      (x.ring = some .sca → u.rings = { t.rings with sca := (v :: t.rings.sca).take 8 }) ∧
      (x.ring = some .scb → u.rings = { t.rings with scb := (v :: t.rings.scb).take 8 })) ∧
    (∀ r v, x.dst = .vector r v → u = { t with v := u.v, rings := u.rings, fps := u.fps, poison := u.poison } ∧
      (∀ q, mapGet 0 u.v q = if r = some q then v else mapGet 0 t.v q) ∧
      (x.ring = none → u.rings = t.rings) ∧
      (x.ring = some .vec → u.rings = { t.rings with vec := ((v, x.poisoned) :: t.rings.vec).take 4 }) ∧
      (x.ring = some .mtx → u.rings = { t.rings with mtx := ((v, x.poisoned) :: t.rings.mtx).take 4 }) ∧
      (x.ring = some .mls → u.rings = { t.rings with mls := ((v, x.poisoned) :: t.rings.mls).take 4 }) ∧
      (x.ring = some .gat → u.rings = { t.rings with gat := ((v, x.poisoned) :: t.rings.gat).take 4 })) ∧
    (∀ r v, x.dst = .pred r v → u = { t with q := u.q, fps := u.fps } ∧
      ∀ q, predReg u q = if q = r then v else predReg t q) ∧
    (∀ r v, x.dst = .flag r v → r < 16 → u = { t with c := u.c, fps := u.fps } ∧
      ∀ q, flagReg u q = if q = r ∧ r ≠ 0 then v else flagReg t q) ∧
    (∀ r v, x.dst = .target r v → u = { t with t := u.t, fps := u.fps } ∧
      ∀ q, targetReg u q = if q = r then v else targetReg t q) ∧
    (∀ r v, x.dst = .base r v → u = { t with a := u.a, fps := u.fps } ∧ ∀ q, baseReg u q = if q = r then v else baseReg t q) ∧
    (∀ r v, x.dst = .handle r v → u = { t with h := u.h, fps := u.fps } ∧
      ∀ q, handleReg u q = if q = r then v else handleReg t q) ∧
    (∀ r v, x.dst = .record r v → u = { t with b := u.b, fps := u.fps, poison := u.poison } ∧
      ∀ q, recReg u q = if q = r then v else recReg t q) ∧
    (∀ v, x.dst = .gaIndex v → u = { t with gaI := v, fps := u.fps }) ∧
    (∀ v, x.dst = .gaData v → u = { t with gaD := v, fps := u.fps }))

/-! ### Control -/

/-- R250, R251: targets are written without a check; an acting transfer to a good target is pending with its delay bundles, and
one to a bad target takes FETCH with FADR at the target and slot 0. -/
def Obligations.TransferResults : Prop :=
  ∀ (h : Head) (s : State),
    let k := curTask s
    (∀ f : Xfr, Ready (.pbr h f) s →
      exec (.pbr h f) s = .next (pushDue s 1 0 (.target f.t.toNat (BitVec.ofInt 64 (k.pc.toInt + 4 * f.imm.toInt))))) ∧
    (∀ f : SReg, Ready (.pbrr h f) s →
      exec (.pbrr h f) s = .next (pushDue s 1 0 (.target (f.x.toNat % 8) (scalarIn k f.a)))) ∧
    (∀ f : Xfr,
      let x := targetReg k f.t.toNat
      let good := canonical x = true ∧ x.toNat % 4 = 0
      let s1 := modTask s (fun t => { t with pend := some ⟨x, f.dly.toNat, false, none⟩ })
      (Ready (.xfer h f) s → good → exec (.xfer h f) s = .next s1) ∧
      (Ready (.xfer h f) s → ¬ good → exec (.xfer h f) s = .next (takeFault s s.cur (mkFault .fetch x 0))) ∧
      (Ready (.xferl h f) s → good → ∀ link s2, afterBundles s1 s1.cur (f.dly.toNat + 1) (curTask s1).pc = (.ok link, s2) →
        exec (.xferl h f) s = .next (pushScalar s2 1 0 f.a.toNat link)) ∧
      (Ready (.xferl h f) s → ¬ good → exec (.xferl h f) s = .next (takeFault s s.cur (mkFault .fetch x 0))))

/-- R255: LOOP and LOOPI with a count activate the counter, innermost, from the following bundle to the end bundle, and end
the loops activated after it; with count 0 they go on behind the end bundle. R256: the end matching, innermost first: an
active loop whose END is the bundle's address goes back while its count is above 1, and else is ended and the next outer loop
is looked at. R257: BREAK ends the named loop and every loop activated after it, and nothing where the loop is inactive. -/
def Obligations.LoopResults : Prop :=
  (∀ (h : Head) (f : SReg) (s : State),
     let k := curTask s
     let n := f.d.toNat % 4
     let e := k.pc + BitVec.ofNat 64 (4 * f.x.toNat)
     let old := fun (m : Nat) => k.loops.getD m LoopSt.zero
     let drops := fun (m : Nat) => (old n).active && (old m).active && decide ((old n).order ≤ (old m).order)
     let runs := fun (i : Instr) (count : Word) =>
       Ready i s → k.loops.length = 4 →
         (count ≠ 0 → ∀ start s1, afterBundle s s.cur k.pc = (.ok start, s1) →
           ∃ t, exec i s = .next t ∧ (curTask t).loops.length = 4 ∧
             (∀ m, m < 4 → m ≠ n → (curTask t).loops.getD m LoopSt.zero = if drops m then LoopSt.zero else old m) ∧
             ∃ o, (curTask t).loops.getD n LoopSt.zero = ⟨count, true, start, e, o⟩ ∧
               ∀ m, m < 4 → m ≠ n → ((curTask t).loops.getD m LoopSt.zero).active = true →
                 ((curTask t).loops.getD m LoopSt.zero).order < o) ∧
         (count = 0 → ∀ next s1, afterBundle s s.cur e = (.ok next, s1) →
           ∃ t, exec i s = .next t ∧ (curTask t).skip = some next ∧
             ∀ m, m < 4 → (curTask t).loops.getD m LoopSt.zero = if drops m then LoopSt.zero else old m)
     runs (.loop h f) (scalarIn k f.a) ∧ runs (.loopi h f) (BitVec.ofNat 64 (f.a.toNat * 128 + f.b.toNat))) ∧
  (∀ (pc : Word) (l : List LoopSt), l.length = 4 →
     (∀ n m, n < 4 → m < 4 → n ≠ m → (l.getD n LoopSt.zero).active → (l.getD m LoopSt.zero).active →
       (l.getD n LoopSt.zero).order ≠ (l.getD m LoopSt.zero).order) →
     let x := fun (n : Nat) => l.getD n LoopSt.zero
     let here := fun (n : Nat) => n < 4 ∧ (x n).active = true ∧ (x n).stop = pc
     let inner := fun (n : Nat) => here n ∧ ∀ m, here m → (x m).order ≤ (x n).order
     ((∀ n, ¬ here n) → endLoops 4 pc l = (none, l)) ∧
       (∀ n, inner n → 1 < (x n).count.toNat →
         endLoops 4 pc l = (some (x n).start, setAt l n { x n with count := (x n).count - 1 })) ∧
       (∀ n, inner n → (x n).count.toNat ≤ 1 → endLoops 4 pc l = endLoops 3 pc (setAt l n LoopSt.zero))) ∧
  (∀ (h : Head) (f : SReg) (s : State), Ready (.breakLoop h f) s →
     let old := fun (m : Nat) => (curTask s).loops.getD m LoopSt.zero
     let n := f.d.toNat % 4
     ∃ l, exec (.breakLoop h f) s = .next (modTask s (fun t => { t with loops := l })) ∧ l.length = (curTask s).loops.length ∧
       ∀ m, l.getD m LoopSt.zero =
         if (old n).active = true ∧ (old m).active = true ∧ (old n).order ≤ (old m).order then LoopSt.zero else old m)

/-- R147, R154, R260, R261, R263: WFE completes in every state in which its event is there, and takes it, but for an event of its own
cycle behind an older one, or behind an entry of the queue; until then it is not issued and nothing changes. SEV completes in every
state: to a task of its own context, or from a supervisor core of any, that is placed or suspended; to the other live members of its
gang; to the tower's supervisor core. That a number reaches only a task placed or suspended, and that the supervisor core keeps an
event of the cycle of its WFE where the queue alone would have let it issue, are the model's readings (logs 18, 127). -/
def Obligations.EventResults : Prop :=
  ∀ (h : Head) (f : SReg) (s : State),
    let k := curTask s
    let cyc := s.pkg.cyc
    let num := (scalarIn k f.a).setWidth 32
    let event := fun (t : Task) => { t with evp := true, evLast := some (cyc, evpBefore cyc t) }
    (∀ tw c, s.cur = .core tw c → Ready (.wfe h f) s →
      (k.evp = true →
        exec (.wfe h f) s =
          .next (modTask s (fun t => { t with evp := decide (t.evLast = some (cyc, true)), evLast := none }))) ∧
      (k.evp = false → gate (.wfe h f) (sylWfe f) s = .stall ∧ exec (.wfe h f) s = .next s)) ∧
    (∀ tw, s.cur = .sup tw → Ready (.wfe h f) s →
      let w := getTower s tw
      (w.sup.evBit = true ∨ w.evq ≠ [] →
        exec (.wfe h f) s = .next (setTower s tw
          { w with sup := { w.sup with evBit := decide (w.sup.evLast = some (cyc, true)), evLast := none } })) ∧
      (w.sup.evBit = false → w.evq = [] → gate (.wfe h f) (sylWfe f) s = .stall ∧ exec (.wfe h f) s = .next s)) ∧
    (f.x = 0 → Ready (.sev h f) s →
      (∀ x, findTask s num = some x → x.status ≠ .ready → isSup s.cur = true ∨ x.ctx = k.ctx →
        exec (.sev h f) s = .next (modTaskNum s num event)) ∧
      ((∀ x, findTask s num = some x → x.status = .ready ∨ (isSup s.cur = false ∧ x.ctx ≠ k.ctx)) → exec (.sev h f) s = .next s)) ∧
    (f.x = 1 → Ready (.sev h f) s →
      exec (.sev h f) s =
        .next ((k.gang.filter (fun n => decide (n ≠ k.num) && (findTask s n).isSome)).foldl (fun u n => modTaskNum u n event) s)) ∧
    (f.x = 2 → Ready (.sev h f) s →
      exec (.sev h f) s =
        .next (modTower s (agentTower s.cur) (fun w =>
          { w with sup := { w.sup with evBit := true, evLast := some (cyc, supReady cyc w) } })))

/-! ### Vectors -/

/-- R296, R297: lane arithmetic: integers modulo 2^N or saturated, floats rounded once. -/
def Obligations.VectorArithmetic : Prop :=
  ∀ (h : Head) (f : VecF) (s : State),
    let w := tyBits f.ty
    let sp := fspec f.ty.toNat
    let a := srcLane s f.ty f.s1
    let b := srcLane s f.ty f.s2
    let c := srcLane s f.ty f.s3
    let ia := fun j => intVal f.ty (a j)
    let ib := fun j => intVal f.ty (b j)
    let int := isInt f.ty
    let gives := fun (i : Instr) (lat : Nat) (act : Nat → Bool) (g : Nat → Nat) =>
      Ready i s → ∃ t, exec i s = .next t ∧ VecResult lat f s t act g
    let lat := if int then 5 else 7
    gives (.vadd h f) lat (laneActs s f)
      (fun j => if int then unsign w (ia j + ib j) else (floatOp2 addFV sp (rtzBit f) (a j) (b j)).1) ∧
    gives (.vsub h f) lat (laneActs s f)
      (fun j => if int then unsign w (ia j - ib j)
        else (floatOp2 (fun x y => addFV x (negFV y)) sp (rtzBit f) (a j) (b j)).1) ∧
    gives (.vmul h f) 7 (laneActs s f)
      (fun j => if int then unsign w (ia j * ib j) else (floatOp2 mulFV sp (rtzBit f) (a j) (b j)).1) ∧
    gives (.vfma h f) 8 (fun _ => true)
      (fun j => if int then unsign w (ia j * ib j + intVal f.ty (c j)) else (fmaLane f.ty (rtzBit f) (a j) (b j) (c j)).1) ∧
    gives (.vmin h f) lat (laneActs s f)
      (fun j => if int then unsign w (min (ia j) (ib j)) else (extremeF sp false (a j) (b j)).1) ∧
    gives (.vmax h f) lat (laneActs s f)
      (fun j => if int then unsign w (max (ia j) (ib j)) else (extremeF sp true (a j) (b j)).1) ∧
    gives (.vabs h f) lat (laneActs s f)
      (fun j => if int then unsign w ((ia j).natAbs : Int)
        else if isNan (fdec sp (a j)) then sp.canon else a j % 2 ^ (w - 1)) ∧
    gives (.vneg h f) lat (laneActs s f)
      (fun j => if int then unsign w (-(ia j))
        else if isNan (fdec sp (a j)) then sp.canon else a j ^^^ 2 ^ (w - 1)) ∧
    gives (.vadds h f) 5 (laneActs s f) (fun j => (saturate (tySigned f.ty) w (ia j + ib j)).1) ∧
    gives (.vsubs h f) 5 (laneActs s f) (fun j => (saturate (tySigned f.ty) w (ia j - ib j)).1) ∧
    gives (.vmulh h f) 7 (laneActs s f) (fun j => unsign w (ia j * ib j / 2 ^ w))

/-- R296, R298: bitwise operations, shifts by a lane modulo the width, and counts. R296, R301: selects, permutes, broadcasts,
moves, inserts and extracts. -/
def Obligations.VectorBitsAndMoves : Prop :=
  (∀ (h : Head) (f : VecF) (s : State),
     let w := tyBits f.ty
     let a := srcLane s f.ty f.s1
     let b := srcLane s f.ty f.s2
     let gives := fun (i : Instr) (g : Nat → Nat) =>
       Ready i s → ∃ t, exec i s = .next t ∧ VecResult 5 f s t (laneActs s f) g
     gives (.vand h f) (fun j => a j &&& b j) ∧
     gives (.vor h f) (fun j => a j ||| b j) ∧
     gives (.vxor h f) (fun j => a j ^^^ b j) ∧
     gives (.vandn h f) (fun j => a j &&& (2 ^ w - 1 - b j)) ∧
     gives (.vshl h f) (fun j => a j * 2 ^ (b j % w)) ∧
     gives (.vshr h f) (fun j => a j / 2 ^ (b j % w)) ∧
     gives (.vsar h f) (fun j => unsign w (signed w (a j) / 2 ^ (b j % w))) ∧
     gives (.vpopc h f) (fun j => ((List.range w).filter (fun n => (a j).testBit n)).length)) ∧
  (∀ (h : Head) (f : VecF) (s : State),
     let n := lanes f.ty
     let a := srcLane s f.ty f.s1
     let b := srcLane s f.ty f.s2
     let x2 := (scalarInV (curTask s) f.s2).toNat
     let x3 := (scalarInV (curTask s) f.s3).toNat
     let idx := fun (j : Nat) => if j < 1024 then srcLane s 1 f.s2 j else srcLane s 1 f.s3 (j - 1024)
     let gives := fun (i : Instr) (lat : Nat) (act : Nat → Bool) (g : Nat → Nat) =>
       Ready i s → ∃ t, exec i s = .next t ∧ VecResult lat f s t act g
     gives (.vsel h f) 5 (fun _ => true) (fun j => if (predReg (curTask s) (f.s3.toNat % 16)).getLsbD j then a j else b j) ∧
     gives (.vperm h f) 9 (fun _ => true) (fun j => if idx j < n then a (idx j) else 0) ∧
     gives (.vbcast h f) 5 (laneActs s f) (fun _ => x2) ∧
     gives (.vbcastLn h f) 5 (laneActs s f) (fun _ => a (x2 % n)) ∧
     gives (.vmov h f) 5 (laneActs s f) a ∧
     gives (.vins h f) 5 (fun _ => true) (fun j => if j = x3 then x2 else a j) ∧
     gives (.vext h f) 5 (fun _ => true)
       (fun j => if j + x3 < n then a (j + x3) else if j + x3 < 2 * n then b (j + x3 - n) else 0))

/-- R302 to R306: conversions, packing, unpacking, zero points, blocks and planes, element by element. -/
def Obligations.VectorConversions : Prop :=
  ∀ (h : Head) (f : VecF) (s : State),
    let n := lanes f.ty
    let gives := fun (i : Instr) (lat : Nat) (act : Nat → Bool) (g : Nat → Nat) =>
      Ready i s → ∃ t, exec i s = .next t ∧ VecResult lat f s t act g
    let src : BitVec 4 := f.s2.setWidth 4
    let part := f.s2.toNat / 32 % 8
    let m := min (lanes src) n
    let lo := if m < n then part * m else 0
    let from' := if m < lanes src then part * m else 0
    let e := fun (j : Nat) => f.md.toNat % 8 * min (if f.md.getLsbD 3 then 2048 else 4096) n + j
    gives (.vcvt h f) 7 (fun j => laneActs s f j && decide (lo ≤ j) && decide (j < lo + m))
      (fun j => (convertElem src f.ty (f.s2.getLsbD 4) (srcLane s src f.s1 (from' + j - lo))).1) ∧
    gives (.vpack h f) 7 (laneActs s f)
      (fun j => (convertElem (packSrc f.ty) f.ty (rtzBit f)
        (if j < lanes (packSrc f.ty) then srcLane s (packSrc f.ty) f.s1 j
         else srcLane s (packSrc f.ty) f.s2 (j - lanes (packSrc f.ty)))).1) ∧
    gives (.vunpk h f) 7 (fun _ => true)
      (fun j => (convertElem (unpackSrc f) f.ty false (srcLane s (unpackSrc f) f.s1 (f.s2.toNat % 2 * n + j))).1) ∧
    gives (.vzps h f) 7 (fun j => decide (j < min (if f.md.getLsbD 3 then 2048 else 4096) n))
      (fun j => (convertInt f.ty false
        ((offsetCode (vectorIn (curTask s) f.s1).toNat (f.md.getLsbD 3) (e j) : Int) -
          zeroPoint (vectorIn (curTask s) f.s2).toNat (f.md.getLsbD 3) (e j))).1) ∧
    gives (.vplx h f) 7 (fun _ => true)
      (fun j => (plxLane f (vectorIn (curTask s) f.s1).toNat (vectorIn (curTask s) f.s2).toNat (f.md.toNat * n + j)).1) ∧
    (Ready (.vpli h f) s → ∃ x fl, exec (.vpli h f) s =
        .next (pushDue s 7 4 (.vector (if f.nwb = 1 then none else some f.dst.toNat) x) (some .vec) fl) ∧
      let k := f.md.toNat % 8 + 2
      ∀ b j p, b < min 64 (2048 / (4 * k)) → j < 32 → p < k →
        planeBit x.toNat k b p j = (saturate true k (signed 8 (srcLane s 0 f.s1 (32 * b + j)))).1.testBit p)

/-- R199, R210, R299: a reduction leaves one value for each of 2^g groups of lanes, of those under the mask; the lanes behind
them are zero; integer sums are exact and saturate once. R300: compares write a predicate, zero where the mask is; the
predicate operations act on every bit. -/
def Obligations.VectorReductionsAndPredicates : Prop :=
  (∀ (h : Head) (f : VecF) (s : State),
     let n := lanes f.ty
     let groups := 2 ^ f.s2.toNat
     let size := n / groups
     let group := fun (i : Nat) => (List.range size).map (fun j =>
       if laneActs s f (i * size + j) then some (srcLane s f.ty f.s1 (i * size + j)) else none)
     let gives := fun (i : Instr) (one : List (Option Nat) → Nat) =>
       Ready i s → ∃ t, exec i s = .next t ∧ ∃ x fl,
         t = pushDue s 12 4 (.vector (if f.nwb = 1 then none else some f.dst.toNat) x) (some .vec) fl ∧
         ∀ j, j < n → laneAt f.ty x j = if j < groups then one (group j) % 2 ^ tyBits f.ty else 0
     gives (.vrsum h f)
       (fun l => if isInt f.ty then
           (saturate (tySigned f.ty) (tyBits f.ty) (l.map (fun x => (x.map (intVal f.ty)).getD 0)).sum).1
         else (reduceTree (floatOp2 addFV (fspec f.ty.toNat) (rtzBit f)) 0 l).1) ∧
     gives (.vrmax h f) (fun l => (reduceTree (extremeLane f.ty true) (emptyExtreme f.ty true) l).1) ∧
     gives (.vrmin h f) (fun l => (reduceTree (extremeLane f.ty false) (emptyExtreme f.ty false) l).1) ∧
     gives (.vrand h f) (fun l => (reduceTree (fun a b => (a &&& b, 0)) (2 ^ tyBits f.ty - 1) l).1) ∧
     gives (.vror h f) (fun l => (reduceTree (fun a b => (a ||| b, 0)) 0 l).1)) ∧
  (∀ (h : Head) (f : VecF) (s : State),
     let qa := predReg (curTask s) (f.s1.toNat % 16)
     let qb := predReg (curTask s) (f.s2.toNat % 16)
     let d := f.dst.toNat % 16
     (Ready (.vcmp h f) s → ∃ q fl, exec (.vcmp h f) s = .next (pushDue s 5 4 (.pred d q) none fl) ∧
       ∀ j, j < lanes f.ty → q.getLsbD j =
         (laneActs s f j && (cmpLane f.ty (f.md.toNat % 8) (srcLane s f.ty f.s1 j) (srcLane s f.ty f.s2 j)).1)) ∧
     (Ready (.vqand h f) s → exec (.vqand h f) s = .next (pushDue s 5 4 (.pred d (qa &&& qb)))) ∧
     (Ready (.vqor h f) s → exec (.vqor h f) s = .next (pushDue s 5 4 (.pred d (qa ||| qb)))) ∧
     (Ready (.vqnot h f) s → exec (.vqnot h f) s = .next (pushDue s 5 4 (.pred d (~~~qa)))))

/-- R307, R308: exponential and reciprocal lane by lane, and the merge of softmax states segment by segment. -/
def Obligations.VectorFunctions : Prop :=
  ∀ (h : Head) (f : VecF) (s : State),
    let a := srcLane s f.ty f.s1
    let g := 512 / 2 ^ f.md.toNat
    let seg := fun (r : BitVec 10) (i : Nat) => (List.range g).map (fun j => srcLane s 10 r (i * g + j))
    (Ready (.vexp2 h f) s → ∃ t, exec (.vexp2 h f) s = .next t ∧
      VecResult 10 f s t (laneActs s f) (fun j => (funcF exp2FV f.ty.toNat (rtzBit f) (a j)).1)) ∧
    (Ready (.vrcp h f) s → ∃ t, exec (.vrcp h f) s = .next t ∧
      VecResult 10 f s t (laneActs s f) (fun j => (funcF rcpFV f.ty.toNat (rtzBit f) (a j)).1)) ∧
    (Ready (.vmrg h f) s → ∃ x fl, exec (.vmrg h f) s =
        .next (pushDue s 14 4 (.vector (if f.nwb = 1 then none else some f.dst.toNat) x) (some .vec) fl) ∧
      ∀ i j, i < 2 ^ f.md.toNat → j < g →
        laneAt 10 x (i * g + j) = (mergeSeg (seg f.s1 i) (seg f.s2 i)).1.getD j 0 % 2 ^ 32)

/-- The frame of the vector instructions: no byte of memory, no other core and no unit changes, and no register at once; when the
results on their way have come, only the named vector register or predicate, the sticky flags and the latch ring differ. -/
def Obligations.VectorFrame : Prop :=
  ∀ (i : Instr) (h : Head) (f : VecF) (s t : State), vecForm i = some (h, f) → Ready i s → exec i s = .next t →
    SameBytes s t ∧ t.mem = s.mem ∧ SameCores s t ∧ SameUnits s t ∧ SameRegs (curTask s) (curTask t) ∧
      let x := commitAll (curTask s)
      let y := commitAll (curTask t)
      (∀ r, writesPred i = true ∨ f.nwb = 1 ∨ r ≠ f.dst.toNat → mapGet 0 y.v r = mapGet 0 x.v r) ∧
      (∀ r, writesPred i = false ∨ r ≠ f.dst.toNat % 16 → predReg y r = predReg x r) ∧
      y.s = x.s ∧ y.c = x.c ∧ y.t = x.t ∧ y.a = x.a ∧ y.b = x.b ∧ y.h = x.h ∧ y.loops = x.loops ∧ y.agu = x.agu ∧ y.arr = x.arr ∧
      (∀ n, x.fps.getLsbD n = true → y.fps.getLsbD n = true)

/-! ### Matrix -/

/-- R317, whole: MZERO zeroes its tile, makes it valid, drops an open block of that tile and leaves X; every other field must be
zero. -/
def Obligations.ZeroTile : Prop :=
  (∀ w : Word, w.toNat / 2 ^ 56 = 2 → decodeSyllable 6 w = some (.mzero (.ofWord w) (.ofWord w))) ∧
  (∀ (h : Head) (f : MatF) (s : State),
     let k := curTask s
     let z := f.z.toNat
     (Ready (.mzero h f) s → k.arr.z.length = 8 → k.arr.valid.length = 8 →
       ∃ a, exec (.mzero h f) s = .next (modTask s (fun t => { t with arr := a, poison := unpoison (.tile z) t.poison })) ∧
         (∀ n, (a.z.getD z []).getD n 0 = 0) ∧ tileValid a z = true ∧ a.x = k.arr.x ∧
         (∀ y, y ≠ z → a.z.getD y [] = k.arr.z.getD y [] ∧ tileValid a y = tileValid k.arr y) ∧
         (k.arr.blk.map Block.tile = some z → a.blk = none) ∧ (k.arr.blk.map Block.tile ≠ some z → a.blk = k.arr.blk)) ∧
     (predicateHolds k h = true → hasFeature s (slotFeature 6) = true →
       f.s1 ≠ 0 ∨ f.s2 ≠ 0 ∨ f.aux ≠ 0 ∨ f.ty ≠ 0 ∨ f.md ≠ 0 →
         exec (.mzero h f) s = .next (takeFault s s.cur (bundleFault s .illegalOperand 6))))

/-- R312, R313: an MCFG sets formats, columns and, if asked, X of its tile, after closing the open block where the rule says so; a
tile that is not valid, a source that fails its checks, the bus of another gang and reserved bits fault; with SRC 0 it keeps the
bus, with SRC 1 it leaves it, and with SRC 2 to 4 it attaches and asks for an epoch over the sources it checked, every byte of which
the epoch may read (log 26). That a task without a gang is a group of its own is the model's reading (log 28). R314, R318: MPUSH
opens a block with the gathered rows and 256 column exponents, after closing the open one; an invalid tile or a wrong format faults
it. -/
def Obligations.MatrixSetup : Prop :=
  (∀ (h : Head) (f : MatF) (s : State), Ready (.mcfg h f) s →
     let v := (vectorIn (curTask s) f.s1).toNat % 2 ^ 512
     let w0 := imageWord v 0
     let src := bits w0 43 40
     let z := f.z.toNat
     (imageOk v = false →
       exec (.mcfg h f) s = .next (takeFault s s.cur (mkFault .illegalOperand (curTask s).pc 6))) ∧
     (∀ af bf, imageOk v = true → arrayA (bits w0 31 28) (bits w0 27 25) = some af →
       arrayB (bits w0 23 20) (bits w0 19 17) = some bf → (bit w0 37 = true → hasFeature s 5 = true) →
       let k := curTask s
       let closes := decide ((k.arr.afmt ≠ some af ∨ k.arr.bfmt ≠ some bf) ∨
         (bit w0 47 = true ∧ k.arr.blk.map Block.tile = some z))
       let sets := fun (s1 t : State) =>
         let a := (curTask s1).arr
         let b := (curTask t).arr
         b.afmt = some af ∧ b.bfmt = some bf ∧ b.cols = bit w0 37 ∧ b.half = bit w0 36 ∧ b.blk = a.blk ∧ b.z = a.z ∧
           b.valid = a.valid ∧
           (bit w0 47 = true → a.x.length = 8 → b.x.getD z 0 = signed 16 (bits w0 63 48)) ∧
           (∀ y, y ≠ z → b.x.getD y 0 = a.x.getD y 0) ∧ (bit w0 47 = false → b.x = a.x) ∧ t.mem = s.mem ∧ SameCores s t
       (src < 2 →
         (∀ s1, closing closes s = .done s1 → ∃ t, exec (.mcfg h f) s = .next t ∧ sets s1 t ∧ (src = 0 → t.buses = s.buses) ∧
           (src = 1 → ∀ g ∈ t.buses, ∀ m ∈ g.members, m.num ≠ k.num)) ∧
         (∀ b, closes = true → k.arr.blk = some b → tileValid k.arr b.tile = false →
           exec (.mcfg h f) s = .next (takeFault s s.cur (mkFault .tileInvalid 0 6 b.tile)))) ∧
       (∀ tw cc, s.cur = .core tw cc → 2 ≤ src → (src = 4 → coreLayer cc = 1) →
         (cfgPending s v = true → gate (.mcfg h f) (sylMcfg f) s = .stall ∧ exec (.mcfg h f) s = .next s) ∧
         (∀ e, cfgPending s v = false → placeCfg s (imageCfg v bf s.nextId) = .error e →
           exec (.mcfg h f) s = .next (takeFault s s.cur e)) ∧
         (∀ c, cfgPending s v = false → placeCfg s (imageCfg v bf s.nextId) = .ok c →
           let checked := fun (n : Nat) (slot : Bool) (e : CopyEnd) =>
             let w := word (imageWord v n)
             checkEnd s 6 .load 64 w ((c.rows slot).map (fun r => (((endOff w + r.1 : Nat) : Int), r.2))) = .ok e
           c.src = src ∧ c.planes = bf.k ∧ c.stamp = s.nextId ∧ c.words = [1, 2, 3, 4].map (fun n => word (imageWord v n)) ∧
           (src ≠ 3 → ∃ e, checked 2 false e ∧ c.t = e.adr) ∧
           (src ≠ 2 → ∃ e, checked 3 true e ∧ c.s = e.adr ∧ inClusterPads tw cc e.adr = true) ∧
           (busTaken s tw cc (gangLead k) = true → ∃ adr,
             exec (.mcfg h f) s = .next (takeFault s s.cur (checkFault .rights adr 6 0))) ∧
           (busTaken s tw cc (gangLead k) = false → ∀ s1, closing closes s = .done s1 → ∃ t g m, exec (.mcfg h f) s = .next t ∧
             sets s1 t ∧ t.nextId = s.nextId + 1 ∧ g ∈ t.buses ∧ m ∈ g.members ∧ m.num = k.num ∧ m.next = some c ∧
             (busOf s k.num = none →
               g.tower = tw ∧ g.layer = busLayer cc ∧ g.cluster = busCluster cc ∧ g.gang = gangLead k)))))) ∧
  (∀ (h : Head) (f : MatF) (s : State),
     let k := curTask s
     let z := f.z.toNat
     (Ready (.mpush h f) s →
       (tileValid k.arr z = false →
         exec (.mpush h f) s = .next (takeFault s s.cur (mkFault .tileInvalid 0 6 z))) ∧
       (tileValid k.arr z = true → k.arr.afmt ≠ some (gaFormat k) →
         exec (.mpush h f) s = .next (takeFault s s.cur (mkFault .illegalOperand k.pc 6))) ∧
       (tileValid k.arr z = true → k.arr.afmt = some (gaFormat k) → tilePoison k z = none → k.gaD.poisoned = none →
         ∀ s1, closing true s = .done s1 →
           ∃ t, exec (.mpush h f) s = .next t ∧
             (curTask t).arr.blk = some ⟨z, [], 0⟩ ∧ (curTask t).arr.z = (curTask s1).arr.z ∧
             (∀ n, n < 1024 → (curTask t).arr.a.getD n 0 = k.gaD.a.getD n 0) ∧
             (∀ r, r < 32 → (curTask t).arr.ea.getD r 0 = k.gaD.ea.getD r 0) ∧
             ∀ c, c < 256 → (curTask t).arr.e.getD c 0 =
               byteOf (vectorIn k f.s1).toNat (256 * (f.aux.toNat % 8) + c))))

/-- R315: the beats on the open block, cell by cell, in 22 bits over the column set; without an open block they fault
TILE_INVALID (the tile that DETAIL names there is a free value, log 52). R207, R209, R314: closing a block adds p · 2^(eA + E
− 127 − s − X), rounded to nearest even, to every element of the tile, saturated at 48 bits. -/
def Obligations.MatrixBeats : Prop :=
  (∀ (h : Head) (f : MatF) (s : State),
     let k := curTask s
     let sub := f.aux.toNat % 4
     let cell := fun (b : Block) (r c : Nat) => b.p.getD (256 * r + c) 0
     let row := fun (r n : Nat) => k.arr.a.getD (32 * r + 8 * sub + n) 0
     let sum := fun (g : Nat → Int) => ((List.range 8).map g).sum
     let next := fun (i : Instr) (b : Block) (grow : Nat) (g : Nat → Nat → Int → Int) =>
       ∃ t b', exec i s = .next t ∧ (curTask t).arr.blk = some b' ∧ b'.tile = b.tile ∧ b'.s = b.s + grow ∧
         ∀ r c, r < 32 → c < 256 → cell b' r c =
           if inColumns k.arr c then partial22 (g r c (cell b r c)) else cell b r c
     (∀ b, k.arr.blk = some b → Ready (.mshf h f) s → next (.mshf h f) b 1 (fun _ _ p => 2 * p)) ∧
     (∀ b, k.arr.blk = some b → Ready (.macch h f) s → next (.macch h f) b 0 (fun r _ p => p + sum (row r))) ∧
     (∀ b x s1, k.arr.blk = some b → Ready (.macc h f) s → beatHeld s s.cur = false → nextSlice b.tile s = .ok (x, s1) →
       next (.macc h f) b 0 (fun r c p =>
         let q := sum (fun n => if sliceBit x.toNat c n then row r n else 0)
         if b.s = 0 then p - q else p + q)) ∧
     (k.arr.blk = none →
       (Ready (.mshf h f) s → ∃ d, exec (.mshf h f) s = .next (takeFault s s.cur (mkFault .tileInvalid 0 6 d))) ∧
       (Ready (.macc h f) s → ∃ d, exec (.macc h f) s = .next (takeFault s s.cur (mkFault .tileInvalid 0 6 d))) ∧
       (Ready (.macch h f) s → ∃ d, exec (.macch h f) s = .next (takeFault s s.cur (mkFault .tileInvalid 0 6 d))))) ∧
  (∀ (a : Arr) (b : Block), a.blk = some b → a.z.length = 8 → b.tile < 8 → b.p.length ≤ 8192 →
     (a.z.getD b.tile []).length ≤ 8192 →
     let a' := (closeBlock a).1
     a'.blk = none ∧ a'.x = a.x ∧ (∀ y, y ≠ b.tile → a'.z.getD y [] = a.z.getD y []) ∧
       ∀ r c, r < 32 → c < 256 →
         let p := b.p.getD (256 * r + c) 0
         let e := a.ea.getD r 0 + (a.e.getD c 0 : Nat) - 127 - (b.s : Nat) - a.x.getD b.tile 0
         let v := if p = 0 then 0 else roundInt false (decide (p < 0)) p.natAbs e
         (a'.z.getD b.tile []).getD (256 * r + c) 0 =
           max (-(2 ^ 47)) (min (2 ^ 47 - 1) ((a.z.getD b.tile []).getD (256 * r + c) 0 + v)))

/-- R316: MDRN converts the rows it names, lane by lane, scaled where it says, and clears them where it says. -/
def Obligations.MatrixDrain : Prop :=
  ∀ (h : Head) (f : MatF) (s s1 : State), Ready (.mdrn h f) s →
    let z := f.z.toNat
    let n := 2048 / elemSize f.ty
    let lo := 256 * (f.aux.toNat % 32)
    let el := fun (a : Arr) (i : Nat) => (a.z.getD z []).getD i 0
    (tileValid (curTask s).arr z = false →
      exec (.mdrn h f) s = .next (takeFault s s.cur (mkFault .tileInvalid 0 6 z))) ∧
    (tileValid (curTask s).arr z = true → tilePoison (curTask s) z = none →
      closing (decide ((curTask s).arr.blk.map Block.tile = some z)) s = .done s1 →
      let a := (curTask s1).arr
      ∃ t x fl, exec (.mdrn h f) s = .next (pushDue t 8 6 (.vector (some f.s1.toNat) x) (some .mtx) fl) ∧
        (∀ j, j < n → laneAt f.ty x j =
          (drainLane f.ty (f.md.getLsbD 0) (el a (lo + j)) (a.x.getD z 0)
            (if f.md.getLsbD 1 then some (laneAt 10 (vectorIn (curTask s) f.s2) (j % 256)) else none)).1 % 2 ^ tyBits f.ty) ∧
        (f.md.getLsbD 3 = false → t = s1) ∧
        (f.md.getLsbD 3 = true → a.z.length = 8 → (a.z.getD z []).length ≤ 8192 →
          ∃ a', t = modArr s1 (fun _ => a') ∧ (∀ i, i < 8192 → el a' i = if lo ≤ i ∧ i < lo + n then 0 else el a i) ∧
            a'.x = a.x ∧ a'.blk = a.blk ∧ ∀ y, y ≠ z → a'.z.getD y [] = a.z.getD y []))

/-- R309, R310: GIDX names format, record and offsets for the gather; GATH loads its rows and side bytes in one step and
delivers operands, exponents and the image together at L = 8. That one which meets bank conflicts (R33) has its read enter the queues,
its results due as before, is the model's choice (log 104). -/
def Obligations.GatherResults : Prop :=
  ∀ (h : Head) (f : VecF) (s : State),
    let k := curTask s
    (Ready (.gidx h f) s → ∃ g, exec (.gidx h f) s = .next (pushDue s 1 5 (.gaIndex g)) ∧
      g.fmt = some (fmtOf f.ty.toNat (f.md.toNat % 8)) ∧ g.recd = f.s2.toNat ∧
      ∀ j, j < 64 → g.offs.getD j 0 = srcLane s 2 f.s1 j) ∧
    (∀ fm l, Ready (.gath h f) s → k.gaI.fmt = some fm → recPending s s.cur k.num k.gaI.recd = false →
      poisonOf k (.record k.gaI.recd) = none →
      checkAsks s 5 (gatherAsks (recReg k k.gaI.recd) fm k.gaI.offs) = .ok l →
      mlsHeld s (mkAccess s s.nextId 7 0 (.loadV 0) (l.flatMap Prod.snd)) = false →
      (s.slow = true → ∃ x, exec (.gath h f) s = .next (gatherResults f fm 0 none (some s.nextId) (enqueueAccess s x)) ∧
        x.slot = 7 ∧ x.op = .loadV 0 ∧ x.grans = eventsOf (l.flatMap Prod.snd)) ∧
      (s.slow = false →
      let v := loadRuns s (l.flatMap Prod.snd)
      ∃ bad d, exec (.gath h f) s = .next (pushDue (pushDue s 8 5 (.gaData d)) 8 5
          (.vector (if f.nwb = 1 then none else some f.dst.toNat) v) (some .gat) 0 bad) ∧
        d.fmt = some fm ∧ d.poisoned = bad ∧
        ∀ r, r < 32 → d.ea.getD r 0 = (gatherOperands fm v.toNat r).2 ∧
          ∀ e, e < 32 → d.a.getD (32 * r + e) 0 = (gatherOperands fm v.toNat r).1.getD e 0))

/-! ### Memory -/

/-- R35, R268, R269: a scalar load that passes its checks. By MLS it is performed at issue, once no earlier access of its core holds
it, and the value, the bytes of its runs and zero beside them, falls at L = 4; by MGL and MTW it enters the queues; the pointer
moves in the post-increment form. R35, R269: a scalar store that passes its checks. By MLS its bytes are written at issue; by MGL
and MTW it enters the queues with the data register's value of its issue. That an MLS access which meets bank conflicts (R33) enters
the queues too, its result due as before, is the model's choice (log 104). -/
def Obligations.ScalarAccess : Prop :=
  (∀ (h : Head) (f : MemF) (s : State) (rs : List Run),
     let k := curTask s
     let n := memSize f
     let d := memReg f
     let ask := fun (slot : Nat) => scalarAsk slot .load k f f.imm.toInt
     let ptr := fun (slot : Nat) (t : State) => pointerWrite slot f f.imm.toInt n t
     let near := fun (i : Instr) (sx : Bool) =>
       Ready i s → checkAsks s 7 [ask 7] = .ok [(ask 7, rs)] → anyHeld s h f (fun _ => .loadS d n sx) 0 [(ask 7, rs)] = false →
       (s.slow = true → exec i s = .next (ptr 7 (lateResults (fun _ => 4) (fun _ => .loadS d n sx) none s.nextId 0 [(ask 7, rs)]
         (enqueueAll 7 h f (fun _ => .loadS d n sx) [(ask 7, rs)] s)))) ∧
       (s.slow = false →
         ∃ v : Word, exec i s = .next (ptr 7 (pushDue s 4 7 (.scalar d v) none 0 (poisonAt s (ask 7) rs))) ∧
           ∃ y, y < 2 ^ (8 * n) ∧ v = (if sx then BitVec.ofInt 64 (signed (8 * n) y) else BitVec.ofNat 64 y) ∧
             ((∀ r ∈ rs, 0 < r.len) → rs.Pairwise (fun p q => p.img + p.len ≤ q.img ∨ q.img + q.len ≤ p.img) →
               ∀ i, i < n → y / 2 ^ (8 * i) % 256 =
                 match rs.find? (fun r => r.img ≤ i ∧ i < r.img + r.len) with
                 | some r => (readByte s (r.adr + (i - r.img))).toNat
                 | none => 0))
     let far := fun (i : Instr) (slot : Nat) (sx : Bool) =>
       Ready i s → checkAsks s slot [ask slot] = .ok [(ask slot, rs)] →
         exec i s = .next (ptr slot (enqueueAccess s (accessOf s slot h f (.loadS d n sx) (ask slot) rs)))
     near (.ld h f) true ∧ near (.ldz h f) false ∧ far (.gld h f) 8 true ∧ far (.gldz h f) 8 false ∧
       far (.wld h f) 9 true ∧ far (.wldz h f) 9 false) ∧
  (∀ (h : Head) (f : MemF) (s : State) (rs : List Run),
     let k := curTask s
     let n := memSize f
     let x := scalarImage (scalarCode k (memReg f))
     let ask := fun (slot : Nat) => scalarAsk slot .store k f f.imm.toInt
     let ptr := fun (slot : Nat) (t : State) => pointerWrite slot f f.imm.toInt n t
     let far := fun (i : Instr) (slot : Nat) =>
       Ready i s → checkAsks s slot [ask slot] = .ok [(ask slot, rs)] →
         exec i s = .next (ptr slot (enqueueAccess s (accessOf s slot h f (.store x) (ask slot) rs)))
     (Ready (.st h f) s → checkAsks s 7 [ask 7] = .ok [(ask 7, rs)] → anyHeld s h f (fun _ => .store x) 0 [(ask 7, rs)] = false →
       exec (.st h f) s = .next (ptr 7 (if s.slow then enqueueAll 7 h f (fun _ => .store x) [(ask 7, rs)] s else storeRuns s x rs))) ∧
       far (.gst h f) 8 ∧ far (.wst h f) 9)

/-- R265, R268, R270: vector and tile loads, register by register: by MLS register k falls at L = 6 + k and enters the MLS
ring; by MGL and MTW each register's access enters the queues in ascending order. R190, R265, R270: vector and tile stores,
register by register, one triggering write. That an MLS access which meets bank conflicts (R33) enters the queues too, its results
due as before, is the model's choice (log 104). -/
def Obligations.VectorAccess : Prop :=
  (∀ (h : Head) (f : MemF) (s : State),
     let k := curTask s
     let d := f.data.toNat
     let op := fun (n : Nat) => AccOp.loadV (d + n)
     let ptr := fun (slot : Nat) (t : State) => pointerWrite slot f f.imm.toInt 64 t
     let near := fun (i : Instr) (asks : List Ask) =>
       ∀ l, Ready i s → checkAsks s 7 asks = .ok l → anyHeld s h f op 0 l = false →
       (s.slow = true → exec i s =
         .next (ptr 7 (lateResults (fun n => 6 + n) op (some .mls) s.nextId 0 l (enqueueAll 7 h f op l s)))) ∧
       (s.slow = false →
         ∃ dues : List Due, exec i s = .next (ptr 7 (modTask s (fun t => { t with due := t.due ++ dues }))) ∧
           dues.length = l.length ∧ ∀ n q, l[n]? = some q →
             dues[n]? = some (mkDue k (6 + n) 7 (.vector (some (d + n)) (loadRuns s q.2)) (some .mls) 0 (poisonAt s q.1 q.2)))
     let far := fun (i : Instr) (slot : Nat) (asks : List Ask) =>
       ∀ l, Ready i s → checkAsks s slot asks = .ok l → exec i s = .next (ptr slot (enqueueAll slot h f op l s))
     near (.vld h f) (vectorAsks 7 .load k f) ∧ near (.tld h f) (tileAsks 7 .load k f) ∧
       far (.gvld h f) 8 (vectorAsks 8 .load k f) ∧ far (.gtld h f) 8 (tileAsks 8 .load k f) ∧
       far (.wvld h f) 9 (vectorAsks 9 .load k f) ∧ far (.wtld h f) 9 (tileAsks 9 .load k f)) ∧
  (∀ (h : Head) (f : MemF) (s : State),
     let k := curTask s
     let data := fun (n : Nat) => vectorCode k (f.data.toNat + n)
     let op := fun (n : Nat) => AccOp.store (data n)
     let ptr := fun (slot : Nat) (t : State) => pointerWrite slot f f.imm.toInt 64 t
     let near := fun (i : Instr) (asks : List Ask) =>
       ∀ l, Ready i s → checkAsks s 7 asks = .ok l → anyHeld s h f op 0 l = false →
         exec i s = .next (ptr 7 (if s.slow then enqueueAll 7 h f op l s
           else storeAll s (l.zipIdx.flatMap (fun q => (eventsOf q.1.2).map (fun g => (g.adr, imageBytes (data q.2) g.off g.len))))))
     let far := fun (i : Instr) (slot : Nat) (asks : List Ask) =>
       ∀ l, Ready i s → checkAsks s slot asks = .ok l → exec i s = .next (ptr slot (enqueueAll slot h f op l s))
     near (.vst h f) (vectorAsks 7 .store k f) ∧ near (.tst h f) (tileAsks 7 .store k f) ∧
       far (.gvst h f) 8 (vectorAsks 8 .store k f) ∧ far (.gtst h f) 8 (tileAsks 8 .store k f) ∧
       far (.wvst h f) 9 (vectorAsks 9 .store k f) ∧ far (.wtst h f) 9 (tileAsks 9 .store k f))

/-- R102, R190, R269, R270: a store's runs of bytes, one or many: in memory they hold the image's bytes, of runs that overlap those
of the last; everything outside them is unchanged, and no register, tower register or queue of accesses changes but the watch units'
triggers. -/
def Obligations.StoreEffect : Prop :=
  ∀ (s : State) (v : VReg) (rs : List Run), Sound s →
    let t := storeRuns s v rs
    SameBytesBut (rs.map (fun r => (r.adr, r.len))) s t ∧ t.cores = s.cores ∧ t.tasks = s.tasks ∧ t.pkg = s.pkg ∧
      t.acc = s.acc ∧ t.jobs = s.jobs ∧
      (∀ w, { getTower t w with trigs := (getTower s w).trigs } = getTower s w) ∧
      ∀ (i : Nat) (r : Run), rs[i]? = some r → ∀ n, n < r.len → writable (r.adr + n) = true →
        (∀ (j : Nat) (q : Run), i < j → rs[j]? = some q → r.adr + n < q.adr ∨ q.adr + q.len ≤ r.adr + n) →
        readByte t (r.adr + n) = BitVec.ofNat 8 (v.toNat / 2 ^ (8 * (r.img + n)))

/-- R102, R272 to R274: the atomics, one read and one write at the home: what is left in memory, operation by operation; by
MLS at issue with the old value at L = 6, by MGL and MTW through the queues, and later at its home. R272, R273: what each atomic
operation leaves, as numbers of its size. -/
def Obligations.AtomicResults : Prop :=
  (∀ (h : Head) (f : MemF) (s : State),
     let k := curTask s
     let n := memSize f
     let d := memReg f
     let x := scalarCode k d
     let y := scalarCode k (d + 1)
     let imm := signed 13 f.imm.toNat
     let amo := AtomicOp.amo (BitVec.ofNat 4 (f.imm.toNat / 2 ^ 13))
     let near := fun (i : Instr) (op : AtomicOp) (off : Int) =>
       ∀ a, Ready i s → checkAsks s 7 [scalarAsk 7 .atomic k f off] = .ok [(scalarAsk 7 .atomic k f off, [⟨0, a, n⟩])] →
         anyHeld s h f (fun _ => .atomic op d n x y) 0 [(scalarAsk 7 .atomic k f off, [⟨0, a, n⟩])] = false →
         poisonAt s (scalarAsk 7 .atomic k f off) [⟨0, a, n⟩] = none →
         exec i s = .next (pushDue (storeTrig s a (leBytes n (atomicNew op n (readNat s a n) x.toNat y.toNat))) 6 7
           (.scalar d (BitVec.ofNat 64 (readNat s a n))))
     let far := fun (i : Instr) (slot : Nat) (op : AtomicOp) (off : Int) =>
       ∀ rs, Ready i s → checkAsks s slot [scalarAsk slot .atomic k f off] = .ok [(scalarAsk slot .atomic k f off, rs)] →
         exec i s = .next (enqueueAccess s (accessOf s slot h f (.atomic op d n x y) (scalarAsk slot .atomic k f off) rs))
     near (.amo h f) amo imm ∧ near (.cas h f) .cas f.imm.toInt ∧ far (.gamo h f) 8 amo imm ∧ far (.gcas h f) 8 .cas f.imm.toInt ∧
       far (.wamo h f) 9 amo imm ∧ far (.wcas h f) 9 .cas f.imm.toInt) ∧
  (∀ (s : State) (x : Access) (op : AtomicOp) (d n a img : Nat) (u v : Word),
     Sound s → s.freeing = [] → s.acc.find? (fun y => y.id = x.id) = some x → x.op = .atomic op d n u v → x.slot ≠ 7 →
     x.grans = [⟨a, n, img⟩] → mates s x = [] → x.bad = none → n ≤ 8 → granFree s x ⟨a, n, img⟩ = true → badRange s a n = false →
     stillThere s x.who x.num = true → (∀ i, i < n → writable (a + i) = true) →
       ∃ t, exec (.accessPerformedAtHome x.id none .none) s = .next t ∧
         t.acc = sweepMarks (s.acc.filter (fun y => y.id ≠ x.id)) ∧ SameBytesBut [(a, n)] s t ∧
         readNat t a n = atomicNew op n (readNat s a n) u.toNat v.toNat % 2 ^ (8 * n) ∧
         ∃ r ∈ (getCore t x.who).task.due, r.dst = .scalar d (word (readNat s a n)) ∧ r.poisoned = none ∧ r.born = x.born) ∧
  (∀ (n old x y : Nat), (n = 1 ∨ n = 2 ∨ n = 4 ∨ n = 8) → old < 2 ^ (8 * n) → x < 2 ^ 64 → y < 2 ^ 64 →
     let w := 8 * n
     let v := x % 2 ^ w
     let amo := fun (op : Nat) => atomicNew (.amo (BitVec.ofNat 4 op)) n old x y
     amo 0 = (old + x) % 2 ^ w ∧ amo 1 = old &&& v ∧ amo 2 = old ||| v ∧ amo 3 = old ^^^ v ∧
       signed w (amo 4) = min (signed w old) (signed w v) ∧ signed w (amo 5) = max (signed w old) (signed w v) ∧
       amo 6 = min old v ∧ amo 7 = max old v ∧ amo 8 = v ∧
       atomicNew .cas n old x y = if old = y % 2 ^ w then v else old)

/-- R98, R100, R275, R276: markers and fences enter the queues of their slot, and vanish where no earlier access of their core
is left; no register and no byte changes. -/
def Obligations.OrderingEntries : Prop :=
  ∀ (h : Head) (s : State),
    let puts := fun (i : Instr) (slot : Nat) (op : AccOp) =>
      Ready i s → ∃ t x, exec i s = .next t ∧ x.slot = slot ∧ x.op = op ∧ x.who = s.cur ∧ x.grans = [] ∧ x.id = s.nextId ∧
        t = { s with acc := sweepMarks (s.acc ++ [x]), nextId := s.nextId + 1 }
    (∀ f, puts (.mark h f) 7 .mark ∧ puts (.gmark h f) 8 .mark ∧ puts (.wmark h f) 9 .mark) ∧
    ∀ f, puts (.fence h f) 11 (.fence (decide (f.imm.toNat % 4 ≠ 2)) (decide (f.imm.toNat % 4 ≠ 1)) (f.imm.toNat / 4 % 8))

/-- R84, R86, R277, R278: BLD asks for an enabled table's entry within its limits; XLATE makes a handle from a cached or walked
translation. -/
def Obligations.RecordAndHandle : Prop :=
  ∀ (h : Head) (f : MemF) (s : State),
    let k := curTask s
    let i := (scalarIn k f.x).toInt + f.imm.toInt
    let r := (mapGet 0 (getTower s (agentTower s.cur)).otroot k.ctx.toNat).toNat
    let a := tmFlat (bits r 62 60) (bits r 35 21 * 2 ^ 21) + i.toNat * 32
    let va := scalarIn k f.x
    (Ready (.bld h f) s → 0 ≤ i → i < 65536 → bit r 63 = true → lostAt s a = false → bit (readNat s a 4) 19 = true →
      ∃ x, exec (.bld h f) s = .next { s with acc := s.acc ++ [x], nextId := s.nextId + 1 } ∧ x.op = .bld f.b.toNat ∧
        x.grans = [⟨a, 32, 0⟩] ∧ x.who = s.cur ∧ x.id = s.nextId) ∧
    (Ready (.bld h f) s → (i < 0 ∨ 65536 ≤ i ∨ bit r 63 = false) →
      exec (.bld h f) s = .next (takeFault s s.cur (mkFault .rights (BitVec.ofInt 64 i) 9))) ∧
    (Ready (.xlate h f) s → canonical va = false →
      exec (.xlate h f) s = .next (takeFault s s.cur (mkFault .noncanonical va 9))) ∧
    (∀ e, Ready (.xlate h f) s → canonical va = true → tcFind k.ctx va (getCore s s.cur).tc = some e →
      exec (.xlate h f) s = .next (pushDue s 1 9 (.handle f.h.toNat (makeHandle (agentTower s.cur) e)))) ∧
    (Ready (.xlate h f) s → canonical va = true → translate s s.cur k.ctx va = .miss →
      exec (.xlate h f) s =
        (if (getTower s (agentTower s.cur)).fmr.getLsbD 0 = true ∧ walkAsked s s.cur k.ctx va = false then .next (takeFault s s.cur (mkFault .translationAssist va 9))
         else .next (askWalk s s.cur k.ctx va false))) ∧
    (Ready (.xlate h f) s → canonical va = true → translate s s.cur k.ctx va = .failed →
      exec (.xlate h f) s = .next (takeFault s s.cur (mkFault .translation va 9))) ∧
    (∀ (id : Nat) (l : List Move) (w : Walk) (b : Level) (size leaf : Nat),
      let s1 := { s with moves := l }
      s.inputs = [] → s.moves = .walkStep id :: l → s.walks.find? (fun x => x.id = id && x.done.isNone) = some w →
      w.running = true → w.met = [] → tableLevels[w.level]? = some b →
      spireHeld s (walkEntry b w.table (w.region.toNat * 2 ^ 16)) = false →
      walkLoad s1 b w.table (w.region.toNat * 2 ^ 16) = .error (.leaf size leaf) →
        ∃ u, step s = .next u ∧ u.mem = s.mem ∧ ∀ a, a ∈ w.who → ∃ e, (getCore u a).tc.head? = some e ∧ e.ctx = w.ctx ∧
          e.size = BitVec.ofNat 2 size ∧ e.leaf = BitVec.ofNat 64 leaf ∧
          e.vpage = vpageOf size (BitVec.ofNat 64 (w.region.toNat * 2 ^ 16)))

/-- R12, R90, R265, R266, R274: the checks of an access, in their order; the first that fails gives the fault, with its number in DETAIL
and BASE + off in FADR. A row that runs past the end of its scratchpad or of its part of GS is turned away in every bounds mode, before
the checks of what lies inside EXTENT: that order is the model's (log 106). -/
def Obligations.AccessCheckOrder : Prop :=
  ∀ (s : State) (who : Agent) (slot : Nat) (q : Ask),
    let b := q.recd
    let adr := BitVec.ofInt 64 ((b.base : Int) + q.off)
    let c1 := b.loaded = true ∧ b.revoked = false
    let c2 := ∀ sp, q.wired = some sp → b.space = sp
    let c3 := (q.kind = .load → b.bits.getLsbD 81 = true) ∧ (q.kind = .store → b.bits.getLsbD 80 = true) ∧
      (q.kind = .atomic → b.bits.getLsbD 81 = true ∧ b.bits.getLsbD 80 = true ∧ b.bits.getLsbD 79 = true) ∧
      (q.tile = true → b.tshape ≠ 0)
    let c4 := q.off % (q.unit : Int) = 0 ∧ (q.kind = .atomic → ((b.base : Int) + q.off) % (q.unit : Int) = 0)
    let c5 := (∀ r ∈ q.rows, 0 ≤ r.2.1 ∧ (b.base : Int) + r.2.1 + r.2.2 ≤ 2 ^ 64) ∧
      (b.bmode = 0 ∨ q.kind = .atomic → ∀ r ∈ q.rows, r.2.1 + r.2.2 ≤ (b.extent : Int))
    (¬ c1 → checkAsk s who slot q = .error (checkFault .rights adr slot 1)) ∧
    (c1 → ¬ c2 → checkAsk s who slot q = .error (checkFault .rights adr slot 2)) ∧
    (c1 → c2 → ¬ c3 → checkAsk s who slot q = .error (checkFault .rights adr slot 3)) ∧
    (c1 → c2 → c3 → ¬ c4 → checkAsk s who slot q = .error (checkFault .misaligned adr slot 4)) ∧
    (c1 → c2 → c3 → c4 → ¬ c5 → checkAsk s who slot q = .error (checkFault .bounds adr slot 5)) ∧
    (c1 → c2 → c3 → c4 → c5 → b.space = 0 →
      (∃ r ∈ q.rows, b.base + r.2.1.toNat < 2 ^ 20 ∧ 2 ^ 20 < b.base + r.2.1.toNat + r.2.2) →
      checkAsk s who slot q = .error (checkFault .bounds adr slot 5)) ∧
    (c1 → c2 → c3 → c4 → c5 → b.space = 1 →
      (∃ r ∈ q.rows, gsValid (b.base + r.2.1.toNat) = true ∧ gsEnd (b.base + r.2.1.toNat) < b.base + r.2.1.toNat + r.2.2) →
      checkAsk s who slot q = .error (checkFault .bounds adr slot 8)) ∧
    (c1 → c2 → c3 → c4 → c5 → (∀ r ∈ q.rows, rowOverruns q r = false) → checkAsk s who slot q =
      placePieces s who slot q adr (q.rows.flatMap (fun r => splitRow q r.1 r.2.1.toNat r.2.2)))

/-! ### Copies and commands -/

/-- R281 to R284: a copy that passes its checks leaves its bundle as a job of 512-byte chunks with its token pending, and one of no
chunks is complete at once; a timed copy whose time has not come waits in the front end. R104, R107, R283, R286: the time of a waiting
copy comes and it starts, or is cancelled with every chunk failed; a chunk whose lines do not meet its own sources lands: its
destination lines hold what its source lines held, nothing else in memory changes, and its bit of the token is set; a chunk that meets
an uncorrectable error or an unreachable channel fails and writes nothing. With the last chunk the token is released with the bits of
those that landed, and, where none failed, the completion word holds M. The FADR of a failed chunk is the model's reading (log 107). -/
def Obligations.CopyResults : Prop :=
  (∀ (h : Head) (f : CmdF) (s : State) (src dst : CopyEnd) (e : Option CopyEnd),
     let k := curTask s
     let a := scalarIn k f.a
     let b := scalarIn k f.b
     let c := scalarIn k f.c
     let d := scalarIn k f.d
     let n := 64 * shapeLen c * shapeRows c
     let clear := fun (x : Word) => endPending s x = false ∧ endPoison s x 10 = none
     let job := fun (time : Word) (late : Bool) =>
       mkJob s f.tok.toNat (.copy src dst (shapeRows c) (shapeLen c) e time) ((n + 511) / 512) late
     (Ready (.cpy h f) s → clear a → clear b → (f.x.getLsbD 0 = true → clear d) →
       checkCopy s f (f.x.getLsbD 0) = .ok (src, dst, e) → n ≠ 0 →
       exec (.cpy h f) s = .next (startJob s (job 0 false))) ∧
     (Ready (.cpyt h f) s → clear a → clear b → checkCopy s f false = .ok (src, dst, e) → n ≠ 0 → d.toNat ≤ s.pkg.cyc.toNat →
       exec (.cpyt h f) s = .next (startJob s (job d false))) ∧
     (Ready (.cpyt h f) s → clear a → clear b → checkCopy s f false = .ok (src, dst, e) → s.pkg.cyc.toNat < d.toNat →
       frontEnd s s.cur < 32 → exec (.cpyt h f) s = .next (startJob s (job d true))) ∧
     (Ready (.cpyt h f) s → clear a → clear b → checkCopy s f false = .ok (src, dst, e) → s.pkg.cyc.toNat < d.toNat →
       32 ≤ frontEnd s s.cur → exec (.cpyt h f) s = .next s) ∧
     (s.freeing = [] → n = 0 → Sound s →
       let ends := fun (t : State) =>
         (∀ x ∈ t.jobs, x.id ≠ s.nextId) ∧ (∀ x ∈ s.jobs, x.id ≠ s.nextId → x ∈ t.jobs) ∧
         (e = none → t.mem = s.mem) ∧
         (∀ w, e = some w → lostAt s w.adr = false → SameBytesBut [(w.adr, 8)] s t ∧
           ((∀ i, i < 8 → writable (w.adr + i) = true) → readNat t w.adr 8 = 0)) ∧
         (f.tok ≠ 0 → stillThere s s.cur k.num = true → ∃ d ∈ (curTask t).due, d.dst = .scalar f.tok.toNat 0 ∧ d.due = k.issued)
       (Ready (.cpy h f) s → clear a → clear b → (f.x.getLsbD 0 = true → clear d) →
         checkCopy s f (f.x.getLsbD 0) = .ok (src, dst, e) → ∃ t, exec (.cpy h f) s = .next t ∧ ends t) ∧
       (Ready (.cpyt h f) s → clear a → clear b → checkCopy s f false = .ok (src, dst, e) → d.toNat ≤ s.pkg.cyc.toNat →
         ∃ t, exec (.cpyt h f) s = .next t ∧ ends t))) ∧
  (∀ (s : State) (j : Job) (src dst : CopyEnd) (rows len : Nat) (w : Option CopyEnd) (time : Word),
     j.kind = .copy src dst rows len w time → Sound s →
     (s.jobs.find? (fun x => x.id = j.id && x.waiting) = some j → time.toNat ≤ s.pkg.cyc.toNat → savedTask s j.num = false →
       endStale src = none → endStale dst = none → j.chunks ≠ 0 →
       exec (.copyIssue j.id) s =
         .next (putJob s { j with waiting := false, after := jobAfter s j.who j.kind })) ∧
     (∀ c adr, s.jobs.find? (fun x => x.id = j.id && x.waiting) = some j → time.toNat ≤ s.pkg.cyc.toNat → savedTask s j.num = false →
       s.freeing = [] →
       (endStale src = some c ∧ adr = endFadr src src.adr) ∨ (endStale src = none ∧ endStale dst = some c ∧ adr = endFadr dst dst.adr) →
       ∃ t, exec (.copyIssue j.id) s = .next t ∧ t.mem = s.mem ∧ (∀ x ∈ t.jobs, x.id ≠ j.id) ∧
         (j.tok ≠ 0 → stillThere s j.who j.num = true →
           (∃ d ∈ (getCore t j.who).task.due, d.dst = .scalar j.tok 0 ∧ d.born = j.born) ∧
           ((getCore s j.who).task.waitTok = some j.tok → ∀ i, i < j.chunks → (i, c, adr) ∈ (getCore t j.who).task.tokFail))) ∧
     (∀ i, s.jobs.find? (fun x => x.id = j.id) = some j → jobFree s j = true → i < j.chunks →
       (j.landed ||| j.failed).getLsbD i = false → (∀ p ∈ j.parts, p.chunk ≠ i) → chunkHeld s j.who src dst rows len i = false →
       (∀ e, w = some e → pageHeld s e.adr 8 = false ∧ pathHeld s j.who e.adr = false) → j.chunks ≤ 64 →
       let lines := chunkLines (64 * len * rows) i
       let more := ∃ m, m < j.chunks ∧ m ≠ i ∧ (j.landed ||| j.failed).getLsbD m = false
       let token := fun (t : State) (x : Word) => (∀ y ∈ t.jobs, y.id ≠ j.id) ∧
         (j.tok ≠ 0 → stillThere s j.who j.num = true →
           ∃ d ∈ (getCore t j.who).task.due, d.dst = .scalar j.tok x ∧ d.born = j.born)
       let bit := 1#64 <<< i
       ((∀ n ∈ lines, badRange s (endByte src len n) 64 = false ∧ lostAt s (endByte dst len n) = false) →
         (lines.map (endByte dst len)).Pairwise (fun a b => a + 64 ≤ b ∨ b + 64 ≤ a) →
         (∀ n ∈ lines, ∀ m ∈ lines, rangesMeet (endByte dst len n, 64) (endByte src len m, 64) = false) →
         (more → ∃ t, exec (.chunkLand j.id i .none) s = .next t ∧
           SameBytesBut (lines.map (fun n => (endByte dst len n, 64))) s t ∧
           (∀ n ∈ lines, ∀ b, b < 64 → writable (endByte dst len n + b) = true →
             readByte t (endByte dst len n + b) = readByte s (endByte src len n + b)) ∧
           t.cores = s.cores ∧ t.jobs = s.jobs.map (fun x => if x.id = j.id then { j with landed := j.landed ||| bit } else x)) ∧
         (¬ more → s.freeing = [] → ∃ t, exec (.chunkLand j.id i .none) s = .next t ∧ token t (j.landed ||| bit) ∧
           SameBytesBut (lines.map (fun n => (endByte dst len n, 64)) ++ w.toList.map (fun e => (e.adr, 8))) s t ∧
           (∀ n ∈ lines, ∀ b, b < 64 → writable (endByte dst len n + b) = true →
             (∀ e, w = some e → endByte dst len n + b < e.adr ∨ e.adr + 8 ≤ endByte dst len n + b) →
             readByte t (endByte dst len n + b) = readByte s (endByte src len n + b)) ∧
           (w = none ∨ j.failed ≠ 0 → SameBytesBut (lines.map (fun n => (endByte dst len n, 64))) s t) ∧
           (∀ e, w = some e → j.failed = 0 → lostAt s e.adr = false → (∀ b, b < 8 → writable (e.adr + b) = true) →
             readNat t e.adr 8 = 2 ^ j.chunks - 1))) ∧
       (∀ a adr, (firstBad s (lines.map (endByte src len)) = some a ∧ adr = endErrAdr src a) ∨
           (firstBad s (lines.map (endByte src len)) = none ∧ (lines.map (endByte dst len)).find? (lostAt s) = some a ∧
             adr = endErrAdr dst a) →
         (more → exec (.chunkLand j.id i .none) s = .next { s with jobs := s.jobs.map (fun x => if x.id = j.id then
           { j with failed := j.failed ||| bit, causes := j.causes ++ [(i, .uncorrected, adr)] } else x) }) ∧
         (¬ more → s.freeing = [] → ∃ t, exec (.chunkLand j.id i .none) s = .next t ∧ t.mem = s.mem ∧ token t j.landed))))

/-- R281, R284, R285: WAITC goes on when no pending token is named, or when every chunk its mask names has landed; it takes the fault of
the first that failed, also of a token released while it waited; otherwise it waits. A mask register that is a pending token reads the
bits of the chunks landed. -/
def Obligations.CopyWait : Prop :=
  ∀ (h : Head) (f : CmdF) (s : State), Ready (.waitc h f) s →
    let k := curTask s
    let named := (myJobs s s.cur k.num).find? (fun j => j.tok = f.tok.toNat)
    let goesOn := modTask s (fun t => { t with waitTok := none, tokFail := [] })
    ∀ a : Word, (∀ j, (myJobs s s.cur k.num).find? (fun j => j.tok = f.a.toNat) = some j → a = j.landed) →
    ((myJobs s s.cur k.num).find? (fun j => j.tok = f.a.toNat) = none → a = scalarIn k f.a) →
    (named = none → k.waitTok ≠ some f.tok.toNat → exec (.waitc h f) s = .next goesOn) ∧
    (named = none → k.waitTok = some f.tok.toNat →
      (firstFailed a k.tokFail = none → exec (.waitc h f) s = .next goesOn) ∧
      (∀ c, firstFailed a k.tokFail = some c →
        exec (.waitc h f) s = .next (takeFault s s.cur (mkFault c.2.1 c.2.2 10 (causeCheck c.2.1))))) ∧
    (∀ j, named = some j →
      let w := a &&& chunkMask j
      ((j.landed ||| j.failed) &&& w = w → firstFailed w j.causes = none → exec (.waitc h f) s = .next goesOn) ∧
      (∀ c, (j.landed ||| j.failed) &&& w = w → firstFailed w j.causes = some c →
        exec (.waitc h f) s = .next (takeFault s s.cur (mkFault c.2.1 c.2.2 10 (causeCheck c.2.1)))) ∧
      ((j.landed ||| j.failed) &&& w ≠ w →
        exec (.waitc h f) s = .next (modTask s (fun t => { t with waitTok := some f.tok.toNat }))))

/-- R288, R388: a peer transfer that passes its checks leaves as a job, also one of no chunks that has its flag alone to send; one of
no chunks and no flag is complete at once. What arrives from a peer, a chunk or the 8 bytes of a flag, is written where a landing entry
for that chip covers it, refused elsewhere, and acknowledged. -/
def Obligations.PeerTransfer : Prop :=
  (∀ (h : Head) (f : CmdF) (s : State) (src : CopyEnd),
    let k := curTask s
    let b := (scalarIn k f.b).toNat
    let d := (scalarIn k f.d).toNat
    let n := bits (scalarIn k f.c).toNat 9 0
    Ready (.pxfer h f) s → endPending s (scalarIn k f.a) = false → endPoison s (scalarIn k f.a) 10 = none →
      checkPeer s f = .ok src →
      (n ≠ 0 ∨ f.x.getLsbD 0 = true →
        exec (.pxfer h f) s = .next (startJob s (mkJob s f.tok.toNat
          (.pxfer src (BitVec.ofNat 4 (b / 2 ^ 60)) (BitVec.ofNat 32 b) n
            (if f.x.getLsbD 0 then some (BitVec.ofNat 32 d, BitVec.ofNat 32 (d / 2 ^ 32)) else none)) ((64 * n + 511) / 512) false))) ∧
      (n = 0 → f.x.getLsbD 0 = false → s.freeing = [] → ∃ t, exec (.pxfer h f) s = .next t ∧ t.mem = s.mem ∧
        (∀ x ∈ t.jobs, x.id ≠ s.nextId) ∧ (∀ x ∈ s.jobs, x.id ≠ s.nextId → x ∈ t.jobs) ∧
        (f.tok ≠ 0 → stillThere s s.cur k.num = true →
          ∃ d ∈ (curTask t).due, d.dst = .scalar f.tok.toNat 0 ∧ d.due = k.issued))) ∧
  (∀ (link : BitVec 4) (adr : BitVec 32) (bytes : List Byte) (s : State),
    let l := s.pkg.links.getD link.toNat ⟨false, 0⟩
    let ok := (List.range 64).any (fun i => peerCovers s (0x3000 + 16 * i) none l.peer.toNat adr.toNat bytes.length)
    Sound s → l.up = true → bytes.length ≤ 512 → bytes.length % 64 = 0 → adr.toNat % 64 = 0 → pageHeld s adr.toNat bytes.length = false →
      ∃ t, exec (.peerChunkReceive link adr bytes false) s = .next t ∧ t.pkg.acks = s.pkg.acks ++ [⟨link, adr, ok⟩] ∧
        SameBytesBut [(adr.toNat, if ok then bytes.length else 0)] s t ∧
        (ok = true → ∀ n, n < bytes.length → writable (adr.toNat + n) = true →
          readByte t (adr.toNat + n) = bytes.getD n 0) ∧ t.cores = s.cores) ∧
  (∀ (link : BitVec 4) (adr : BitVec 32) (bytes : List Byte) (s : State),
    let l := s.pkg.links.getD link.toNat ⟨false, 0⟩
    let ok := (List.range 64).any (fun i => peerCovers s (0x3000 + 16 * i) none l.peer.toNat adr.toNat 8)
    Sound s → l.up = true → bytes.length = 8 → adr.toNat % 8 = 0 → pageHeld s adr.toNat 8 = false →
      ∃ t, exec (.peerChunkReceive link adr bytes true) s = .next t ∧ t.pkg.acks = s.pkg.acks ++ [⟨link, adr, ok⟩] ∧
        SameBytesBut [(adr.toNat, if ok then 8 else 0)] s t ∧
        (ok = true → ∀ n, n < 8 → writable (adr.toNat + n) = true →
          readByte t (adr.toNat + n) = bytes.getD n 0) ∧ t.cores = s.cores)

/-- R329, R330, R333 to R340: a command whose operands keep their limits and whose blocks pass their checks leaves its
bundle; the forms of the supervisor core do so there. R329, R331, R332: a command's chunk that nothing holds back is
performed: its reply word holds status and result, and its token is released with 1; one whose block cannot be read is a failed chunk:
it changes no memory, and its token is released with 0. A reply line or register serves a command whose B is any register (log 88).
What the commands do is `CommandEffects`. -/
def Obligations.CommandResults : Prop :=
  (∀ (h : Head) (f : CmdF) (s : State) (x : CopyEnd),
     let k := curTask s
     let a := scalarIn k f.a
     let b := scalarIn k f.b
     let c := scalarIn k f.c
     let d := scalarIn k f.d
     let word' := fun (w : Word) => w.toNat / 2 ^ 11 % 2 ^ 50 = 0
     let sup := isSup s.cur = true
     (Ready (.sqopen h f) s → BlockAt s .load 64 1 false false a x → Issues (.sqopen h f) .sqopen f (some x) none s) ∧
     (Ready (.sqclose h f) s → word' a → Issues (.sqclose h f) .sqclose f none none s) ∧
     (Ready (.sqnode h f) s → word' a → b.toNat / 2 ^ 6 % 2 ^ 10 = 0 → c.toNat < 2 ^ 32 →
       Issues (.sqnode h f) .sqnode f none none s) ∧
     (Ready (.sqchk h f) s → word' a → c.toNat < 2 ^ 39 → 1 ≤ c.toNat / 2 ^ 32 → c.toNat / 2 ^ 32 ≤ 64 →
       BlockAt s .load (8 * (c.toNat / 2 ^ 32)) 1 false false b x → Issues (.sqchk h f) .sqchk f (some x) none s) ∧
     (Ready (.sqacc h f) s → word' a → c.toNat < 2 ^ 32 → d = 0 → BlockAt s .store 128 128 true true b x →
       Issues (.sqacc h f) .sqacc f (some x) none s) ∧
     (Ready (.sqaccAssistComplete h f) s → word' a → c.getLsbD 63 = true → c.toNat / 2 ^ 32 = 2 ^ 31 → sup → d = 0 →
       Issues (.sqaccAssistComplete h f) .sqaccAssist f none none s) ∧
     (Ready (.sqaccAssistComplete h f) s → word' a → c.getLsbD 63 = true → c.toNat / 2 ^ 32 = 2 ^ 31 → sup → d ≠ 0 →
       BlockAt s .load 128 1 false true d x → Issues (.sqaccAssistComplete h f) .sqaccAssist f none (some x) s) ∧
     (Ready (.sqsave h f) s → word' a → Issues (.sqsave h f) .sqsave f none none s) ∧
     (Ready (.sqrst h f) s → Issues (.sqrst h f) .sqrst f none none s) ∧
     (Ready (.kvgrow h f) s → word' a → b.toNat < 2 ^ 32 → c.toNat < 2 ^ 32 → Issues (.kvgrow h f) .kvgrow f none none s) ∧
     (Ready (.kvcommit h f) s → word' a → b.toNat < 2 ^ 32 → Issues (.kvcommit h f) .kvcommit f none none s) ∧
     (Ready (.kvroll h f) s → word' a → b.toNat < 2 ^ 32 → Issues (.kvroll h f) .kvroll f none none s) ∧
     (Ready (.kvexport h f) s → word' a → c.toNat / 2 ^ 6 % 2 ^ 26 = 0 → BlockAt s .store 512 512 true false b x →
       Issues (.kvexport h f) .kvexport f (some x) none s) ∧
     (Ready (.kvpoolEnable h f) s → sup → a = 0 → b.toNat < 64 → Issues (.kvpoolEnable h f) .poolEnable f none none s) ∧
     (Ready (.kvpoolDisable h f) s → sup → a = 1 → b.toNat < 64 → Issues (.kvpoolDisable h f) .poolDisable f none none s) ∧
     (Ready (.kvpoolPin h f) s → a = 2 → word' b → c.toNat < 2 ^ 32 → Issues (.kvpoolPin h f) .poolPin f none none s) ∧
     (Ready (.kvpoolUnpin h f) s → a = 3 → word' b → c.toNat < 2 ^ 32 → Issues (.kvpoolUnpin h f) .poolUnpin f none none s) ∧
     (Ready (.kvpoolSetent h f) s → sup → a = 4 → word' b → c.toNat < 2 ^ 32 → d.getLsbD 63 = false →
       d.toNat / 2 ^ 46 % 2 ^ 16 = 0 → d.toNat % 2 ^ 16 = 0 → Issues (.kvpoolSetent h f) .poolSetent f none none s) ∧
     (Ready (.kvpoolAlloc h f) s → sup → a = 5 → b.toNat < 64 → c.toNat < 2 → Issues (.kvpoolAlloc h f) .poolAlloc f none none s) ∧
     (Ready (.kvpoolFree h f) s → sup → a = 6 → b.toNat < 64 → c.toNat < 2 → d.toNat < 2 ^ 30 →
       Issues (.kvpoolFree h f) .poolFree f none none s) ∧
     (Ready (.pfxlook h f) s → word' a → 1 ≤ c.toNat → c.toNat ≤ 64 → BlockAt s .load (128 * c.toNat) 64 false false b x →
       Issues (.pfxlook h f) .pfxlook f (some x) none s) ∧
     (Ready (.pfxins h f) s → word' a → c.toNat < 2 ^ 32 → BlockAt s .load 128 1 false false b x →
       Issues (.pfxins h f) .pfxins f (some x) none s) ∧
     (Ready (.pfxinsAssistComplete h f) s → word' a → c.getLsbD 63 = true → c.toNat / 2 ^ 32 = 2 ^ 31 → sup →
       Issues (.pfxinsAssistComplete h f) .pfxinsAssist f none none s) ∧
     (Ready (.pfxpin h f) s → word' a → b.toNat / 2 ^ 13 % 2 ^ 50 = 0 → Issues (.pfxpin h f) .pfxpin f none none s) ∧
     (Ready (.stcfgConfigure h f) s → a = 0 → c.toNat / 2 ^ 10 % 2 ^ 53 = 0 →
       (if c.getLsbD 63 then c.toNat % 2 ^ 10 = 0 else c.toNat < 768) → BlockAt s .load 64 1 false false b x →
       Issues (.stcfgConfigure h f) .stConfigure f (some x) none s) ∧
     (Ready (.stcfgDisable h f) s → a = 1 → c.toNat < 768 → Issues (.stcfgDisable h f) .stDisable f none none s) ∧
     (Ready (.stcfgEvict h f) s → a = 2 → c.toNat < 768 → Issues (.stcfgEvict h f) .stEvict f none none s) ∧
     (Ready (.stcfgRestore h f) s → a = 3 → c.toNat < 768 → Issues (.stcfgRestore h f) .stRestore f none none s)) ∧
  (∀ (s s1 : State) (j : Job) (c : Cmd) (st : Status) (r : Nat),
     s.jobs.find? (fun x => x.id = j.id) = some j → j.kind = .cmd c → jobFree s j = true → s.jobs.any (cmdBlocked s j c) = false →
     cmdHeld s c = false → (getTower s (cmdTower j c)).inReset = false →
     (∀ q ∈ cmdReads c, firstLost s q.1 q.2 = none) → performCmd s j c = .done s1 st r → Sound s1 →
     let t := cmdFinish s1 j c st r
     exec (.chunkLand j.id 0 .none) s = .next t ∧
       (∀ a, c.reply = some a → s1.freeing = [] → (∀ n, n < 8 → writable (a + n) = true) →
         readNat t a 8 = r % 2 ^ 32 * 2 ^ 32 + st.code) ∧
       (∀ q, c.crpy = some q → mapGet 0 (getTower t (agentTower j.who)).sup.crpy q = BitVec.ofNat 64 (r % 2 ^ 32 * 2 ^ 32 + st.code)) ∧
       (∀ x ∈ t.jobs, x.id ≠ j.id) ∧
       (j.tok ≠ 0 → stillThere s1 j.who j.num = true → s1.freeing = [] →
         ∃ d ∈ (getCore t j.who).task.due, d.dst = .scalar j.tok 1 ∧ d.born = j.born)) ∧
  (∀ (s : State) (j : Job) (c : Cmd),
     s.jobs.find? (fun x => x.id = j.id) = some j → j.kind = .cmd c → jobFree s j = true → s.jobs.any (cmdBlocked s j c) = false →
     cmdHeld s c = false → (getTower s (cmdTower j c)).inReset = false →
     ((∃ q ∈ cmdReads c, firstLost s q.1 q.2 ≠ none) ∨
       ((∀ q ∈ cmdReads c, firstLost s q.1 q.2 = none) ∧ ∃ a, performCmd s j c = .failed a)) →
     j.landed = 0 → s.freeing = [] →
       ∃ t, exec (.chunkLand j.id 0 .none) s = .next t ∧ t.mem = s.mem ∧ (∀ x ∈ t.jobs, x.id ≠ j.id) ∧
         (j.tok ≠ 0 → stillThere s j.who j.num = true →
           ∃ d ∈ (getCore t j.who).task.due, d.dst = .scalar j.tok 0 ∧ d.born = j.born))

/-- R331: a command that names a request is turned away with RIGHTS for another context's and with STATE for one that is not open.
R333, R335, R337 to R340: what the commands do when performed, with their statuses in order: SQOPEN takes the lowest free record for
the issuer's context, the supervisor's for the pool's (log 84); SQCLOSE leaves no record, binding or image; SQNODE appends a node
(R166); KVGROW, KVCOMMIT and KVROLL set the lengths (R119); PIN, UNPIN and PFXPIN count (R130); STCFG EVICT and DISABLE answer STATE
for a stream that is not there, and DISABLE leaves it off at once (log 122). -/
def Obligations.CommandEffects : Prop :=
  ∀ (s : State) (j : Job) (c : Cmd), Sound s →
    let t := wordTower c.a
    let n := wordReq c.a
    let r := reqAdr t n
    let shaped := fun (t : BitVec 3) (n : Nat) =>
      (∀ i, i < 64 → blockOf s t n i < 11776 ∨ blockOf s t n i = 0xFFFF) ∧ (reqWin s t n = false → reqTlen s t n ≤ 65536) ∧
      (reqWin s t n = true → 1 ≤ reqRing s t n ∧ reqSinks s t n + reqRing s t n ≤ 64)
    let mine := badRange s r 0x400 = false ∧ (isSup j.who = true ∨ reqCtx s t n = c.ctx.toNat)
    let b := c.b.toNat
    let s0 := bindIssuer s j t n
    let does := fun (st : Status) (s1 : State) (x : Nat) => performCmd s j c = .done s1 st x
    (c.kind ∈ [.sqclose, .sqnode, .sqchk, .sqacc, .sqsave, .sqaccAssist, .kvgrow, .kvcommit, .kvroll, .kvexport, .pfxlook, .pfxins,
        .pfxinsAssist, .pfxpin] → badRange s r 0x400 = false →
      (isSup j.who = false → reqCtx s t n ≠ c.ctx.toNat → does .rights s 0) ∧
      (isSup j.who = true ∨ reqCtx s t n = c.ctx.toNat → reqOpen s t n = false → does .state s 0)) ∧
    (c.kind = .sqopen →
      let tw := agentTower j.who
      let w0 := readNat s c.block 8
      let p := bits w0 57 52
      let ctx := if isSup j.who then poolCtx s tw p else c.ctx.toNat
      (openBad s c.block = true → does .badfield s 0) ∧
      (openBad s c.block = false → poolOn s tw p = false ∨ poolCtx s tw p ≠ ctx → does .badpool s 0) ∧
      (openBad s c.block = false → poolOn s tw p = true → poolCtx s tw p = ctx →
        ((∀ m, m < 2048 → reqOpen s tw m = true) → does .norec s 0) ∧
        (∀ m, m < 2048 → (∀ i, i < m → reqOpen s tw i = true) → reqOpen s tw m = false →
          let opens := fun (s1 : State) => does .ok s1 m ∧ reqOpen s1 tw m = true ∧ reqWin s1 tw m = w0.testBit 63 ∧
            reqCtx s1 tw m = ctx ∧ reqPool s1 tw m = p ∧ reqLen s1 tw m = 0 ∧ reqTlen s1 tw m = 0 ∧ reqPages s1 tw m = 0 ∧
            reqHead s1 tw m = reqSinks s1 tw m ∧ reqNodes s1 tw m = 1 ∧
            (isSup j.who = false → (findTask s j.num).isSome = true → ⟨tw, m, j.num⟩ ∈ s1.binds)
          (w0.testBit 63 = false → ∃ s1, opens s1 ∧ SameBytesBut [(reqAdr tw m, 0x400)] s s1) ∧
          (w0.testBit 63 = true → takeBlock s tw = none → does .full s 0) ∧
          (∀ b0 x, w0.testBit 63 = true → takeBlock s tw = some (b0, x) →
            (takeBlock x tw = none → does .full s 0) ∧
            (∀ b1 y, takeBlock x tw = some (b1, y) → ∃ s1, opens s1 ∧ blockOf s1 tw m 0 = b0 ∧ blockOf s1 tw m 1 = b1))))) ∧
    (mine → reqOpen s t n = true →
      (c.kind = .sqclose →
        (boundOther s0 t n j.num = true → does .bound s0 0) ∧
        (boundOther s0 t n j.num = false → streamNames s0 t n = true → does .state s0 0) ∧
        (boundOther s0 t n j.num = false → streamNames s0 t n = false → ∃ s1, does .ok s1 0 ∧
          (∀ x ∈ s1.binds, ¬ (x.tower = t ∧ x.req = n)) ∧ (∀ x ∈ s1.images, ¬ (x.tower = t ∧ x.req = n)) ∧ reqOpen s1 t n = false)) ∧
      (c.kind = .sqnode →
        let k := reqNodes s t n
        let a := bits b 5 0
        let fresh := reqStep s t n = bits c.c.toNat 31 0
        (¬ fresh → does .stale s0 0) ∧
        (fresh → reqSst s t n = 2 → does .order s0 0) ∧
        (fresh → reqSst s t n ≠ 2 → 64 ≤ k → does .full s0 0) ∧
        (fresh → reqSst s t n ≠ 2 → k < 64 → k ≤ a → does .range s0 0) ∧
        (fresh → reqSst s t n ≠ 2 → k < 64 → a < k → reqKmax s t n ≤ nodeDepth s t n 64 a → does .depth s0 0) ∧
        (fresh → reqSst s t n ≠ 2 → k < 64 → a < k → nodeDepth s t n 64 a < reqKmax s t n → ∃ s1, does .ok s1 k ∧
          linkOf s1 t n k = 0x80 + a ∧ nodeWord s1 t n k = bits b 63 32 * 2 ^ 32 + bits b 31 16 * 2 ^ 16 ∧
          reqNodes s1 t n = k + 1 ∧ reqSst s1 t n = 1 ∧
          SameBytesBut [(r + 0x40 + k, 1), (r + 0x100 + 8 * k, 8), (r + 0x24, 4)] s s1)) ∧
      (c.kind = .kvgrow →
        let len := bits b 31 0
        (len < reqTlen s t n → does .range s0 0) ∧
        (reqTlen s t n ≤ len → reqWin s t n = false → 65536 < len → does .limit s0 0) ∧
        (∀ s1 x, shaped t n → does .ok s1 x → reqTlen s t n ≤ len ∧ reqTlen s1 t n = len ∧ x = reqPages s1 t n)) ∧
      (c.kind = .kvcommit →
        let len := bits b 31 0
        (len < reqLen s t n ∨ reqTlen s t n < len → does .range s0 0) ∧
        (reqLen s t n ≤ len → len ≤ reqTlen s t n → shaped t n → ∃ s1, does .ok s1 len ∧ reqLen s1 t n = len ∧ reqTlen s1 t n = reqTlen s t n ∧
          (∀ p ∈ livePages s t n, 16 * p < len → entTent (pageGet s1 t n p) = false))) ∧
      (c.kind = .kvroll →
        let len := bits b 31 0
        let gone := (livePages s t n).filter (fun p => (len + 15) / 16 ≤ p)
        (len < reqLen s t n ∨ reqTlen s t n < len → does .range s0 0) ∧
        (reqLen s t n ≤ len → len ≤ reqTlen s t n → shaped t n →
          ((∃ p ∈ gone, entPin (pageGet s t n p) ≠ 0) → does .pinned s0 0) ∧
          ((∀ p ∈ gone, entPin (pageGet s t n p) = 0) → ∃ s1, does .ok s1 len ∧ reqTlen s1 t n = len ∧
            (∀ p ∈ gone, entV (pageGet s1 t n p) = false)))) ∧
      (c.kind = .pfxpin →
        let e := bits b 12 0
        let a := pfxAdr t e + 0x10
        let k := bits (readNat s a 8) 63 48
        let m := if b.testBit 63 then k - 1 else k + 1
        (partOk s t n = false → does .rights s0 0) ∧
        (partOk s t n = true → inPart s t (reqPart s t n) e = false ∨ pfxOn s t e = false → does .range s0 0) ∧
        (partOk s t n = true → inPart s t (reqPart s t n) e = true → pfxOn s t e = true →
          (k = (if b.testBit 63 then 0 else 0xFFFF) → does .limit s0 0) ∧
          (k ≠ (if b.testBit 63 then 0 else 0xFFFF) → ∃ s1, does .ok s1 m ∧ bits (readNat s1 a 8) 63 48 = m ∧
            SameBytesBut [(a, 8)] s s1)))) ∧
    (∀ up : Bool, c.kind = (if up then .poolPin else .poolUnpin) →
      let u := wordTower c.b
      let m := wordReq c.b
      let p := bits c.c.toNat 31 0
      let x := pageGet s u m p
      let s2 := bindIssuer s j u m
      badRange s (reqAdr u m) 0x400 = false → (isSup j.who = true ∨ reqCtx s u m = c.ctx.toNat) → reqOpen s u m = true → shaped u m →
        (p ∉ livePages s u m → does .range s2 0) ∧
        (p ∈ livePages s u m → entPin x = (if up then 255 else 0) → does .limit s2 0) ∧
        (p ∈ livePages s u m → entPin x ≠ (if up then 255 else 0) → ∃ s1, does .ok s1 (entPin (pageGet s1 u m p)) ∧
          entPin (pageGet s1 u m p) = (if up then entPin x + 1 else entPin x - 1) ∧
          (∀ a, entryAdr s u m (entryOf s u m p) = some a → SameBytesBut [(a, 8)] s s1))) ∧
    (let tw := agentTower j.who
     let k := bits c.c.toNat 9 0
     (c.kind = .stEvict → stOn s tw k = false ∨ streamState s tw k ≠ 1 → does .state s 0) ∧
     (c.kind = .stDisable → c.posted = false → stOn s tw k = false → does .state s 0) ∧
     (c.kind = .stDisable → c.posted = false → stOn s tw k = true → k < 768 → ∃ s1, stOn s1 tw k = false ∧
       (does .ok s1 0 ∨ performCmd s j c = .wait s1 true)))

/-! ### The AGU slot -/

/-- R290: the bases at L = 1, and the set-up of the generator; no other register changes. R291, R292: a step of the
generator, when it is due, sends the address of the present indices to s[GK] for the sixth bundle on, adds what the image
says of an indirect dimension, and steps the indices; after the last combination the run ends. -/
def Obligations.AguResults : Prop :=
  (∀ (h : Head) (f : AGen) (s : State),
     let k := curTask s
     let x := scalarIn k f.a
     let base := fun (i : Instr) (y : Word) => Ready i s → exec i s = .next (pushDue s 1 3 (.base f.ab.toNat y))
     let sets := fun (i : Instr) (p : Agu → Prop) =>
       Ready i s → ∃ g : Agu, exec i s = .next (modTask s (fun t => { t with agu := g })) ∧ p g
     base (.amov h f) x ∧
     base (.aadd h f) (word ((baseReg k f.ab.toNat).toNat + x.toNat)) ∧
     base (.aaddi h f) (BitVec.ofInt 64 ((baseReg k f.ab.toNat).toInt + f.imm.toInt)) ∧
     sets (.acfg h f) (fun g => ∃ st ct i, g = { k.agu with stride := st, count := ct, ind := i } ∧
       st = k.agu.stride.set f.dim.toNat x ∧ ct = k.agu.count.set f.dim.toNat (f.imm.extractLsb' 0 16) ∧
       (i = true ↔ k.agu.ind = true ∧ k.agu.indd ≠ f.dim)) ∧
     sets (.aind h f) (fun g =>
       g = { k.agu with ind := true, indd := f.dim, iflag := f.ab, ilen := x, itab := f.imm.extractLsb' 0 20 }) ∧
     (¬ (k.agu.ind = true ∧ f.a.toNat = 63) → sets (.arun h f) (fun g => ∃ gk : BitVec 6,
       g = { k.agu with gb := f.ab, gk := gk, gp := f.imm.toNat % 64 + 1, idx := [0, 0, 0, 0], run := true, next := k.issued } ∧
       gk.toNat = f.a.toNat % 64)) ∧
     sets (.astop h f) (fun g => g = { k.agu with run := false })) ∧
  (∀ (a : Agent) (s : State),
     let s0 := { s with cur := a }
     let k := curTask s0
     let g := k.agu
     let ends := fun (s1 : State) (t : State) => ∃ g' : Agu,
       t = modTask s1 (fun t => { t with agu := g' }) ∧
       (g'.run = true ↔ mixed g.idx g.count + 1 < runLength g.count) ∧
       (g'.run = true → g' = { g with idx := g'.idx, next := g.next + g.gp } ∧ mixed g'.idx g.count = mixed g.idx g.count + 1) ∧
       (g'.run = false → g' = { g with run := false })
     (getCore s a).live = true → g.run = true → g.next = k.issued →
     g.idx.length = 4 → g.count.length = 4 → (∀ d, d < 4 → g.idx.getD d 0 < (g.count.getD d 0).toNat) →
       (g.ind = false → ∃ t, exec (.generatorStep a) s = .next t ∧
         ends (pushScalar s0 6 3 g.gk.toNat
           (baseReg k g.gb.toNat + word (g.idx.getD 0 0) * g.stride.getD 0 0 + word (g.idx.getD 1 0) * g.stride.getD 1 0 +
             word (g.idx.getD 2 0) * g.stride.getD 2 0 + word (g.idx.getD 3 0) * g.stride.getD 3 0)) t) ∧
       (g.ind = true →
         let w := g.idx.getD g.indd.toNat 0 + 1
         let image := imageFlat s0
         let head := readNat s0 image 8
         let e := readNat s0 (image + 8 * w) 8
         let p := if w ≤ bits head 31 16 then w - 1 else bits head 63 32 + (w - 1 - bits head 31 16)
         let part := fun d => if d = g.indd.toNat then 0 else word (g.idx.getD d 0) * g.stride.getD d 0
         let adr := baseReg k g.gb.toNat + part 0 + part 1 + part 2 + part 3
         let out := fun (c valid : Nat) (miss : Bool) =>
           pushDue (pushDue (pushDue s0 6 3 (.scalar g.gk.toNat (adr + word c))) 6 3 (.scalar (g.gk.toNat + 1) (word valid)))
             6 3 (.flag g.iflag.toNat miss)
         let valid := min 16 (g.ilen.toNat - 16 * p)
         w ≤ 63 → genHeld s0 = false → badRange s0 image 8 = false → badRange s0 (image + 8 * w) 8 = false →
           (bits head 15 0 < w ∨ entV e = false → ∃ t, exec (.generatorStep a) s = .next t ∧ ends (out 0 0 true) t) ∧
           (w ≤ bits head 15 0 → entV e = true → entTier e ≠ 1 → entPgin e = false →
             ∃ t, exec (.generatorStep a) s = .next t ∧ ends (out (entBase e * 4096) valid (decide (valid = 0))) t) ∧
           (w ≤ bits head 15 0 → entV e = true → (entTier e = 1 ∨ entPgin e = true) →
             ∃ t, exec (.generatorStep a) s = .next t ∧ ends (tierMiss (out 0 valid true) image p) t)))

/-! ### Tasks, time and budgets -/

/-- R341: SPAWN hands a launch to the dispatcher of the tower it names, with the context, the coordinates and the argument; the
answer to s[D] comes with the launch; for a tower held in reset it waits (log 74). R145, R111, R349: TEND ends the task and frees
its core while its accesses go on; SVC posts its event and then waits for the answer to s[D]. -/
def Obligations.TaskStartAndEnd : Prop :=
  (∀ (h : Head) (f : SysF) (s : State),
     let k := curTask s
     let a := (scalarIn k f.a).toNat
     let target := if f.imm.getLsbD 15 then agentTower s.cur else f.imm.extractLsb' 12 3
     let sends := fun (ctx : BitVec 12) (path : Path) => ∃ l : Launch,
       exec (.spawn h f) s =
         .next (modTower { s with nextId := s.nextId + 1 } target (fun w => { w with launches := w.launches ++ [l] })) ∧
       l.id = s.nextId ∧ l.ctx = ctx ∧ l.index = f.imm.toNat % 2 ^ 12 ∧ l.coord.toNat = a % 2 ^ 48 ∧ l.arg = scalarIn k f.b ∧
       l.path = path ∧ l.source = .plain ∧ l.release = s.pkg.cyc ∧ l.reply = some (s.cur, k.num, f.d.toNat, k.issued)
     Ready (.spawn h f) s → (getTower s target).ready.length + (getTower s target).launches.length < 16384 →
       ((getTower s target).inReset = false → isSup s.cur = false → a < 2 ^ 48 → sends k.ctx .spawn) ∧
       ((getTower s target).inReset = false → isSup s.cur = true → a < 2 ^ 60 →
         sends (BitVec.ofNat 12 (a / 2 ^ 48)) .supervisor) ∧
       ((getTower s target).inReset = true → a < 2 ^ 48 →
         gate (.spawn h f) (sylSpawn f) s = .stall ∧ exec (.spawn h f) s = .next s)) ∧
  (∀ (h : Head) (s : State) (tw : BitVec 3) (c : BitVec 6), s.cur = .core tw c →
     (∀ f : SReg, Ready (.tend h f) s → ∃ t, exec (.tend h f) s = .next t ∧ (getCore t s.cur).live = false ∧
       (getCore t s.cur).frozen = false ∧ t.acc = s.acc ∧ t.jobs = s.jobs ∧ ∀ g ∈ t.buses, ∀ m ∈ g.members, m.num ≠ (curTask s).num) ∧
     (∀ f : SysF, Ready (.svc h f) s → ∃ e : EvEntry,
       exec (.svc h f) s = .next (modTask (postEntry s tw e) (fun k => { k with svcReg := some f.d.toNat })) ∧
       evClass e = 6 ∧ evCode e = 0x42 ∧ bits e.fsyn.toNat 31 16 = f.imm.toNat % 2 ^ 16 ∧
       e.fadr = scalarIn (curTask s) f.a ∧ e.fbnd.toNat = (curTask s).num.toNat))

/-- R110, R342: GBAR outside a gang completes at once, as a fence of both kinds at its scope. In a gang a member arrives once its
accesses of the scope are performed and its macros have ended; until then it waits, and nothing changes. The last member to arrive
ends the episode, completes, and lets those go that waited; a member whose episode has ended completes; both leave an ACQ fence at
the scope. That the accesses are those of earlier bundles, that the departure is an ACQ fence, and that outside a gang the fence is
of both kinds, are the model's readings (log 68). A member that may not end the episode yet arrives and waits unissued. One whose
mask or scope is not the open episode's, or whose mask names no member of the gang, faults ILLEGAL_OPERAND. -/
def Obligations.BarrierResults : Prop :=
  ∀ (h : Head) (f : SysF) (s : State),
    let k := curTask s
    let scope := f.imm.toNat % 8
    let mask := f.imm.toNat / 2 ^ 8 % 2 ^ 8
    let fenced := fun (rel : Bool) (u t : State) => ∃ x : Access, x.op = .fence true rel scope ∧ x.who = s.cur ∧ x.grans = [] ∧
      x.id = s.nextId ∧ t = { u with acc := sweepMarks (s.acc ++ [x]), nextId := s.nextId + 1 }
    Ready (.gbar h f) s →
      (gangOf s k.num = none → ∃ t, exec (.gbar h f) s = .next t ∧ fenced true s t) ∧
      (∀ g, gangOf s k.num = some g → k.member ∈ g.passed →
        ∃ t, exec (.gbar h f) s = .next t ∧
          fenced false (modGang s k.num (fun g => { g with passed := g.passed.filter (fun m => m ≠ k.member) })) t) ∧
      (∀ g, gangOf s k.num = some g → k.member ∉ g.passed →
        (k.member ∈ g.arrived ∨ (∃ m ∈ k.macros, m.born ≠ k.issued) ∨
          (∃ x ∈ s.acc, x.who = s.cur ∧ x.num = k.num ∧ x.born < k.issued ∧ isAccess x = true ∧ homeInScope scope x = true)) →
        gate (.gbar h f) (sylGbar f) s = .stall ∧ exec (.gbar h f) s = .next s) ∧
      (∀ g, gangOf s k.num = some g → k.member ∉ g.passed → k.member ∉ g.arrived → scopeDrained s scope = true →
        mask < 2 ^ g.members.length →
        (g.arrived = [] ∨ (mask = g.mask ∧ scope = g.scope ∧ (mask = 0 ∨ mask / 2 ^ k.member % 2 = 1))) →
          ((∀ m, m < g.members.length → (mask = 0 ∨ mask / 2 ^ m % 2 = 1) → m ∈ g.ended ∨ m ∈ g.arrived ∨ m = k.member) →
            ∃ t u g', exec (.gbar h f) s = .next t ∧ fenced false u t ∧ t.cores = s.cores ∧ t.mem = s.mem ∧ t.towers = s.towers ∧
              gangOf t k.num = some g' ∧ g'.arrived = [] ∧ k.member ∉ g'.passed ∧ ∀ m ∈ g.arrived, m ∈ g'.passed) ∧
          (∀ n, n < g.members.length → (mask = 0 ∨ mask / 2 ^ n % 2 = 1) → n ∉ g.ended → n ∉ g.arrived → n ≠ k.member →
            gate (.gbar h f) (sylGbar f) s = .wait (.barrier mask scope) ∧
            ∃ t g', exec (.gbar h f) s = .next t ∧ gangOf t k.num = some g' ∧ k.member ∈ g'.arrived ∧ g'.passed = g.passed)) ∧
      (∀ g, gangOf s k.num = some g → k.member ∉ g.passed → k.member ∉ g.arrived → scopeDrained s scope = true →
        (2 ^ g.members.length ≤ mask ∨ (g.arrived ≠ [] ∧ (mask ≠ g.mask ∨ scope ≠ g.scope ∨ (mask ≠ 0 ∧ mask / 2 ^ k.member % 2 = 0)))) →
          exec (.gbar h f) s = .next (takeFault s s.cur (bundleFault s .illegalOperand 11)))

/-- R345, R346: the time that RDTIME reads at L = 2, when WAITT ends, and the budget that BUDSET lowers or sets at L = 1. -/
def Obligations.TimeAndBudget : Prop :=
  ∀ (h : Head) (f : SysF) (s : State),
    let k := curTask s
    let a := scalarIn k f.a
    let ahead := (a.extractLsb' 0 32 - s.pkg.frame.extractLsb' 0 32).toInt
    let time := fun (sel : Nat) => match sel with
      | 0 => s.pkg.cyc.toNat
      | 1 => (s.pkg.tofs.toNat + s.pkg.cyc.toNat * 5 / 8) % 2 ^ 64
      | 2 => s.pkg.frame.toNat
      | _ => min ((s.pkg.cyc.toNat - s.pkg.fstart.toNat) / (fper s / tpf s)) (tpf s - 1)
    (Ready (.rdtime h f) s →
      exec (.rdtime h f) s = .next (pushScalar s 2 11 f.d.toNat (word (time (f.imm.toNat % 4))))) ∧
    (Ready (.waittCyc h f) s →
      gate (.waittCyc h f) (sylWaittCyc f) s = (if a.toNat ≤ s.pkg.cyc.toNat then .done s else .stall) ∧
      exec (.waittCyc h f) s = .next s) ∧
    (Ready (.waittTick h f) s →
      gate (.waittTick h f) (sylWaittTick f) s =
        (if ahead < 0 ∨ (ahead = 0 ∧ (scalarIn k f.b).toNat % 2 ^ 12 ≤ curTick s) then .done s else .stall) ∧
      exec (.waittTick h f) s = .next s) ∧
    (Ready (.budset h f) s → ∃ limit : Word,
      exec (.budset h f) s =
        .next (pushScalar (modTask s (fun t => { t with tbud := limit, counted := true })) 1 11 f.d.toNat k.tbud) ∧
      (k.counted = false → limit = a) ∧ (k.counted = true → limit.toInt = min a.toInt k.tbud.toInt))

/-! ### System instructions -/

/-- R348, R212: MFSR answers at L = 4 with the register that the number names; FPS waits for the macros, and for the results of
earlier bundles that can raise a flag, which come a bundle nearer while it waits: that these are the results of earlier bundles alone,
and that they come nearer, is the model's reading (log 67). R348, R6, R212, R350: MTSR writes what the map
allows, ignores a read-only register, and faults where the map refuses the value. R64, R227, R348: an unmapped number faults
ILLEGAL_OPERAND, and a write by a compute core of a register of the privileged view faults PRIV, both at decode; that SPRQ, which a
compute core does not have, is among them is the model's reading (log 112). -/
def Obligations.SpecialRegisters : Prop :=
  (∀ (h : Head) (f : SysF) (s : State), Ready (.mfsr h f) s →
     let k := curTask s
     let n := f.imm.toNat
     let out := fun (s : State) (x : Word) => exec (.mfsr h f) s = .next (pushScalar s 4 11 f.d.toNat x)
     (∀ x, readReg s s.cur n = some x → n ≠ 0x10 → out s x) ∧ (readReg s s.cur n).isSome = true ∧
     (n = 0 → out s s.pkg.cyc) ∧ (n = 2 → out s s.pkg.tofs) ∧ (n = 3 → out s s.pkg.trate) ∧ (n = 4 → out s s.pkg.frame) ∧
     (n = 5 → out s s.pkg.fstart) ∧ (n = 7 → out s s.pkg.frmcfg) ∧
     (∀ t c, s.cur = .core t c →
       (n = 0x10 → k.macros ≠ [] → gate (.mfsr h f) (sylMfsr f) s = .stall ∧ exec (.mfsr h f) s = .next s) ∧
       (n = 0x10 → k.macros = [] →
         ((∀ d ∈ k.due, d.born = k.issued ∨ (d.slot ≠ 4 ∧ d.slot ≠ 6 ∧ d.flags = 0)) → out s (k.fps.setWidth 64)) ∧
         (∀ d ∈ k.due, d.born ≠ k.issued → (d.slot = 4 ∨ d.slot = 6 ∨ d.flags ≠ 0) →
           gate (.mfsr h f) (sylMfsr f) s = .wait .results ∧
           exec (.mfsr h f) s = .next (modTask s (fun t => { t with due := t.due.map (fun d => { d with due := d.due - 1 }) })))) ∧
       (n = 0x12 → out s k.tbud) ∧ (n = 0x13 → out s (mapGet 0 (getTower s t).bud k.ctx.toNat)) ∧
       (n = 0x14 → out s (k.num.setWidth 64)) ∧ (n = 0x16 → out s (getCore s s.cur).cfm) ∧
       ((n = 0x60 ∨ n = 0x61 ∨ n = 0x62 ∨ n = 0x63) → out s 0) ∧ (n = 0x64 → out s (getTower s t).fmr)) ∧
     (∀ t, s.cur = .sup t →
       let sel := getCore s (.core t (BitVec.ofNat 6 (getTower s t).sup.csel.toNat))
       (n = 0x16 → out s sel.cfm) ∧ (n = 0x20 → out s (getTower s t).vcsel) ∧ (n = 0x60 → out s (getCore s s.cur).fsyn) ∧
       (n = 0x61 → out s (getCore s s.cur).fadr) ∧ (n = 0x68 → out s (getTower s t).sup.sepc) ∧
       (n = 0x69 → out s (getTower s t).sup.stvec) ∧ (n = 0x6A → out s (getTower s t).sup.sstat) ∧ (n = 0xC0 → out s sel.fsyn) ∧
       (n = 0xC1 → out s sel.fadr))) ∧
  (∀ (h : Head) (f : SysF) (s : State), Ready (.mtsr h f) s →
     let k := curTask s
     let n := f.imm.toNat
     let a := scalarIn k f.a
     let gives := fun (t : State) => exec (.mtsr h f) s = .next t
     let traps := fun (c : FCode) => gives (takeFault s s.cur (bundleFault s c 11))
     (readReg s s.cur n).isSome = true ∧
     (∀ t c, s.cur = .core t c →
       ((n = 0 ∨ n = 1 ∨ n = 4 ∨ n = 5 ∨ n = 0x14 ∨ n = 0x15 ∨ n = 0x61) → gives s) ∧
       (n = 0x10 → ∃ fps : BitVec 3, gives (modTask s (fun x => { x with fps := fps })) ∧
         ∀ b, fps.getLsbD b = (k.fps.getLsbD b && !a.getLsbD b)) ∧
       (n = 0x11 → gives (modTask s (fun x => { x with earea := a.extractLsb' 6 14 })))) ∧
     (∀ t, s.cur = .sup t →
       let sup := fun (g : SupSt → SupSt) => modTower s t (fun w => { w with sup := g w.sup })
       (n = 0 → gives s) ∧ (n = 0x20 → if a.toNat < 2 ^ 12 then gives (modTower s t (fun w => { w with vcsel := a })) else traps .illegalOperand) ∧
       (n = 0x30 → if a.toNat < 64 then gives (sup (fun u => { u with csel := a })) else traps .illegalOperand) ∧
       (n = 0x64 → if a.toNat < 2 ^ 9 then gives (modTower s t (fun w => { w with fmr := a })) else traps .illegalOperand) ∧
       (n = 0x68 → gives (sup (fun u => { u with sepc := a }))) ∧
       (n = 0x69 → if a.toNat % 4 = 0 then gives (sup (fun u => { u with stvec := a })) else traps .illegalOperand) ∧
       (n = 0x6A → if a.toNat < 4 then gives (sup (fun u => { u with sstat := a })) else traps .illegalOperand))) ∧
  (∀ (h : Head) (f : SysF) (s : State), predicateHolds (curTask s) h = true → hasFeature s (slotFeature 11) = true →
     let n := f.imm.toNat
     let faults := fun (i : Instr) (c : FCode) => exec i s = .next (takeFault s s.cur (bundleFault s c 11))
     let high := n ∈ [2, 3, 7, 0x12, 0x13, 0x16, 0x53, 0x64]
     (regMapped (isSup s.cur) (n % 2 ^ 12) = false → faults (.mfsr h f) .illegalOperand ∧
       (isSup s.cur = true ∨ n % 2 ^ 12 ≠ 0x53 → faults (.mtsr h f) .illegalOperand)) ∧
     (isSup s.cur = false → high → (Instr.mtsr h f).wf = true → namesLive (curTask s) (usesOf (.mtsr h f)) = true →
       faults (.mtsr h f) .priv))

/-- R349: ERET, TRAP, HALT and ICINV. -/
def Obligations.SystemResults : Prop :=
  ∀ (h : Head) (f : SysF) (s : State),
    let k := curTask s
    (∀ t, s.cur = .sup t → Ready (.eret h f) s → ∃ s1, exec (.eret h f) s = .next s1 ∧
      (curTask s1).pc = (getTower s t).sup.sepc ∧ (curTask s1).skip = some (getTower s t).sup.sepc ∧
      (getTower s1 t).sup.sstat.getLsbD 0 = (getTower s t).sup.sstat.getLsbD 1 ∧
      (getTower s1 t).sup.sstat.getLsbD 1 = (getTower s t).sup.sstat.getLsbD 1 ∧ s1.mem = s.mem ∧ s1.pkg = s.pkg) ∧
    (Ready (.trap h f) s → exec (.trap h f) s = .next (takeFault s s.cur
      { code := .softwareTrap, cls := 3, adr := scalarIn k f.a, detail := f.imm.extractLsb' 0 16, slot := 11, tile := none })) ∧
    (∀ t, s.cur = .sup t → Ready (.halt h f) s →
      exec (.halt h f) s = .next (modTower s t (fun w => { w with sup := { w.sup with halted := true } }))) ∧
    (Ready (.icinv h f) s → ∃ s1, exec (.icinv h f) s = .next s1 ∧ s1.mem = s.mem ∧ s1.towers = s.towers ∧ s1.tasks = s.tasks ∧
      ∀ a : Agent,
        let ctx := if isSup s.cur then (scalarIn k f.b).extractLsb' 0 12 else k.ctx
        let reached := match f.imm.toNat / 4 with
          | 0 => a = s.cur
          | 2 => agentTower a = agentTower s.cur
          | _ => True
        let names := fun (l : IcLine) => l.ctx = ctx ∧
          (f.imm.toNat % 4 = 0 → l.line = (scalarIn k f.a).toNat / 128) ∧
          (f.imm.toNat % 4 = 1 → l.line / 512 = (scalarIn k f.a).toNat / 2 ^ 16)
        (¬ reached → getCore s1 a = getCore s a) ∧
        (reached → ∀ l, l ∈ (getCore s1 a).ic ↔ l ∈ (getCore s a).ic ∧ ¬ names l))

/-! ### The macro-op sequencer -/

/-- R321, R349: CSLD loads the bank that is not in use, makes it current with the next generation, which is its result. R320,
R323, R324: MMT and MATT join the queue of their core, bound to the current generation and its record. -/
def Obligations.ControlStoreAndMacroIssue : Prop :=
  (∀ (h : Head) (f : SysF) (s : State) (x : CopyEnd), Ready (.csld h f) s →
     let k := curTask s
     let e := scalarIn k f.a
     let c := getCore s s.cur
     let a := x.adr
     endPending s e = false → endPoison s e 11 = none → endOk k e = true → checkRange s 11 .load 16384 64 e = .ok x →
     (∀ m ∈ k.macros, m.gen = curGen c) → rangeHeld s a 16384 = false → firstLost s a 16384 = none →
       ∃ c' : CoreSt, exec (.csld h f) s = .next (pushScalar (setCore s s.cur c') 1 11 f.d.toNat ((curGen c').setWidth 64)) ∧
         c'.cur1 = !c.cur1 ∧ curGen c' = curGen c + 1 ∧ c'.task = c.task ∧
         (c'.cur1 = true → c'.bank0 = c.bank0 ∧ c'.gen0 = c.gen0) ∧ (c'.cur1 = false → c'.bank1 = c.bank1 ∧ c'.gen1 = c.gen1) ∧
         ∀ i, i < 256 → (mapGet 0 (curBank c') i).toNat = readNat s (a + 64 * i) 64) ∧
  (∀ (h : Head) (f : SysF) (s : State) (tw : BitVec 3) (c : BitVec 6), s.cur = .core tw c →
     let k := curTask s
     let core := getCore s s.cur
     let off := (scalarIn k f.a).toNat
     let w := scalarIn k f.b
     let joins := fun (i : Instr) (kind : MacroKind) (request : Word) => ∃ m : Macro,
       exec i s = .next (modTask { s with nextId := s.nextId + 1 } (fun t => { t with macros := t.macros ++ [m] })) ∧
       m.kind = kind ∧ m.request = request ∧ m.gen = curGen core ∧ m.record = mapGet 0 (curBank core) (f.imm.toNat % 256) ∧
       m.z = f.imm.toNat / 256 % 8 ∧ m.block.toNat = lsFlat tw c off ∧ m.status = f.d.toNat ∧ m.bundle = k.pc ∧ m.id = s.nextId ∧
       m.begun = false ∧ m.fail = none
     k.macros.length < 4 → off % 64 = 0 → off < 2 ^ 20 →
     (imageWord (mapGet 0 (curBank core) (f.imm.toNat % 256)).toNat 0).testBit 40 = false →
       (Ready (.mmt h f) s → joins (.mmt h f) .mmt 0) ∧
       (Ready (.matt h f) s → bits w.toNat 60 11 = 0 → wordTower w = tw → reqOpen s tw (wordReq w) = true →
         reqCtx s tw (wordReq w) = k.ctx.toNat → (⟨tw, wordReq w, k.num⟩ : Binding) ∈ s.binds → joins (.matt h f) .matt w))

/-- R326, R323, R215: a macro whose record and block are in order, and whose block no earlier access holds, begins. One whose record or
block is not, or an MATT whose scratch tile is not valid, ends: its code goes to its status register, its error record is stored, its
tile becomes invalid, the queue is empty, and the macros behind it complete with status 0x80. Where an earlier access of the core holds
the error record, the macro waits with it. Which failing check is reported, and with what word, is the model's reading (log 45). -/
def Obligations.MacroBegin : Prop :=
  ∀ (s : State) (tw : BitVec 3) (c : BitVec 6) (m : Macro) (l : List Macro),
    let s0 := { s with cur := .core tw c }
    let k := curTask s0
    let area := lsFlat tw c (64 * k.earea.toNat)
    let fails := fun (code badw fcode : Nat) =>
      let e : MacroEnd := ⟨s.nextId, code, badw, fcode, 0⟩
      let s1 := modHead { s0 with nextId := s.nextId + 1 } (fun m => { m with fail := some e })
      (recordHeld s1 m e = true → exec (.macroBegin tw c) s = .next { s1 with cur := s.cur }) ∧
      (recordHeld s1 m e = false → m.z < 8 → k.arr.valid.length = 8 → (∀ n ∈ l, n.z < 8) →
        ∃ t, exec (.macroBegin tw c) s = .next t ∧ t.cur = s.cur ∧
          let k' := (getCore t (.core tw c)).task
          k'.macros = [] ∧ k'.arr.valid.getD m.z true = false ∧ (∀ n ∈ l, k'.arr.valid.getD n.z true = false) ∧
          (∃ d ∈ k'.due, d.dst = .scalar m.status (word code) ∧ d.due = k.issued) ∧
          (∀ n ∈ l, ∃ d ∈ k'.due, d.dst = .scalar n.status 0x80 ∧ d.due = k.issued) ∧
          bits (readNat t area 8) 61 56 = code ∧ bits (readNat t area 8) 63 63 = 1 ∧
          bits (readNat t area 8) 62 62 = bits (readNat s area 8) 63 63 ∧ readNat t (area + 8) 8 = m.bundle.toNat ∧
          readNat t (area + 16) 8 = badw % 2 ^ 64 ∧ readNat t (area + 32) 8 = fcode)
    Sound s → (getCore s (.core tw c)).live = true → k.macros = m :: l → m.begun = false → m.fail = none →
    badRange s m.block.toNat 64 = false → macroHeld s0 m m.block.toNat 64 = false →
      (m.kind = .mmt → (∀ x ∈ mmtBad s0 m, x.1 = false) → k.arr.blk = none →
        ∃ t k', exec (.macroBegin tw c) s = .next t ∧ t.cur = s.cur ∧ (getCore t (.core tw c)).task = k' ∧
          k'.macros = { m with begun := true } :: l ∧ k'.arr.afmt = m.aFmt ∧ k'.arr.bfmt = m.bFmt ∧
          k'.arr.x = k.arr.x.set m.z m.x ∧ k'.arr.z = k.arr.z ∧ k'.arr.valid = k.arr.valid ∧ t.mem = s.mem) ∧
      (m.kind = .matt → (∀ x ∈ mattBad s0 m, x.1 = false) → tileValid k.arr m.z = true → tilePoison k m.z = none →
        ∃ t m', exec (.macroBegin tw c) s = .next t ∧ t.cur = s.cur ∧ (getCore t (.core tw c)).task.macros = m' :: l ∧
          m'.begun = true ∧ m'.record = m.record ∧ m'.st.length = bits (readNat s (m.block.toNat + 8) 8) 58 54 + 1 ∧ t.mem = s.mem) ∧
      (∀ x, m.kind = .mmt → (mmtBad s0 m).find? (fun x => x.1) = some x → fails x.2.1 x.2.2 0) ∧
      (∀ x, m.kind = .matt → (mattBad s0 m).find? (fun x => x.1) = some x → fails x.2.1 x.2.2 0) ∧
      (m.kind = .matt → (∀ x ∈ mattBad s0 m, x.1 = false) → tileValid k.arr m.z = false → fails 5 0 FCode.tileInvalid.num)

/-! ### Versioned buffers, watches and timetable entries -/

/-- R41, R43, R44, R46, R48, R49: the version operations on a buffer of the task's context, behind what waits at its home, and the
writes of its descriptor. A release behind a seal of its own core takes effect when that seal performs, and the waits are taken up at
the end of the cycle (log 123); a disabled buffer drops the seals it has accepted and not performed (log 129). -/
def Obligations.VersionResults : Prop :=
  (∀ (h : Head) (f : SysF) (s : State) (t : BitVec 3) (c : BitVec 6) (n : Nat),
    let k := curTask s
    let name := scalarIn k f.a
    let x := scalarIn k f.b
    let home := Agent.core t c
    let b := getVb s home n
    let slot := fun (b : VBuf) (i : Nat) => b.slots.getD i VSlot.empty
    let result := fun (b : VBuf) (v : BitVec 32) (i : Nat) =>
      word (v.toNat * 2 ^ 32 + lsFlat t c ((vbBase b + i * vbSize b) * 0x4000))
    let keeps := fun (b b' : VBuf) (i : Nat) =>
      b'.desc = b.desc ∧ b'.waits = b.waits ∧ b'.newest = b.newest ∧ ∀ j, j ≠ i → slot b' j = slot b j
    let released := fun (b b' : VBuf) (i : Nat) => keeps b b' i ∧ ∃ r : BitVec 4,
      r.toNat = min 15 ((slot b i).rel.toNat + 1) ∧
        slot b' i = if vbField b 49 46 ≠ 0 ∧ vbField b 49 46 ≤ r.toNat ∧ (slot b i).hold = 1 then
            { st := .free, version := 0, hold := 0, rel := 0 }
          else { slot b i with hold := (slot b i).hold - 1, rel := r }
    (∀ (b : VBuf) (v : BitVec 32),
      (heldSlot b v 0 = none → releaseIn b v = b) ∧
      (∀ i, heldSlot b v 0 = some i → b.slots.length = vbSlots b → released b (releaseIn b v) i)) ∧
    (findVb s name = some (t, c, n) → vbCtx b = k.ctx → vbMigrating s t c n = false → laneHeld s s.cur name.toNat = false →
      (Ready (.vopen h f) s → ∀ i, k.verWait = none → ownSeal s home n = false →
        let s1 := serveWaits s t c n
        let b := getVb s1 home n
        b.slots.length = vbSlots b → vbOpen b = none → vbCandidate b = some i → ∃ b' v,
          exec (.vopen h f) s = .next (pushScalar
            (modTask (setVb s1 home n b') (fun k => { k with verWait := none })) 1 11 f.d.toNat (result b v i)) ∧
          (v = b.newest + 1 ∨ (b.newest + 1 = 0 ∧ v = 1)) ∧ v ≠ 0 ∧ keeps b b' i ∧
          slot b' i = { st := .opened, version := v, hold := 0, rel := 0 } ∧
          (slot b i).st ≠ .opened ∧ ((∃ j, j < vbSlots b ∧ (slot b j).st = .free) → (slot b i).st = .free) ∧
          ((slot b i).st = .closed → vbField b 49 46 = 0 ∧ (slot b i).hold = 0)) ∧
      (Ready (.vseal h f) s → (vbOpen b).isSome = true → ∃ p : Pending,
        exec (.vseal h f) s = .next { s with seals := s.seals ++ [p], nextId := s.nextId + 1 } ∧
        p.id = s.nextId ∧ p.who = s.cur ∧ p.core = home ∧ p.buf = n ∧ p.rel = none ∧
        (∀ y ∈ s.acc, y.who = s.cur → opStores y.op = true → y.id ∈ p.after) ∧
        (∀ j ∈ s.jobs, j.who = s.cur → j.waiting = false → j.id ∈ p.jobs)) ∧
      (Ready (.vhold h f) s → ∀ i, x.toNat < 2 ^ 32 → k.verWait = none → ownSeal s home n = false →
        let s1 := serveHolds s t c n
        let b := getVb s1 home n
        let v : BitVec 32 := if x = 0 then b.newest else x.setWidth 32
        b.slots.length = vbSlots b → v ≠ 0 → versionLost b v = false → holdSlot b v = some i → ∃ b',
          exec (.vhold h f) s = .next (pushScalar (modTask (setVb s1 home n b') (fun k => { k with verWait := none })) 1 11 f.d.toNat
            (result b v i)) ∧
          keeps b b' i ∧ slot b' i = { slot b i with hold := (slot b i).hold + 1 }) ∧
      (Ready (.vrel h f) s → ∀ i, x ≠ 0 → x.toNat < 2 ^ 32 → versionLost b (x.setWidth 32) = false →
        heldSlot b (x.setWidth 32) (ownRels s home n (x.setWidth 32)) = some i →
        (ownSeal s home n = false → b.slots.length = vbSlots b → ∃ b',
          exec (.vrel h f) s = .next (setVb s home n b') ∧ released b b' i) ∧
        (ownSeal s home n = true → ∃ p : Pending,
          exec (.vrel h f) s = .next { s with seals := s.seals ++ [p], nextId := s.nextId + 1 } ∧
          p.id = s.nextId ∧ p.who = s.cur ∧ p.core = home ∧ p.buf = n ∧ p.rel = some (x.setWidth 32))))) ∧
  (∀ (s : State) (t : BitVec 3) (c : BitVec 6) (n : Nat), (getVb s (.core t c) n).waits = [] →
    serveWaits s t c n = s ∧ serveHolds s t c n = s) ∧
  (∀ (s : State) (l : List Move), s.inputs = [] → s.moves = .serveVersions :: l → step s = .next (serveAll { s with moves := l })) ∧
  (∀ (s : State) (p : Pending) (i : Nat),
    let b := getVb s p.core p.buf
    let rs := relsBehind s p
    p ∈ s.seals → (∀ q ∈ s.seals, q.id = p.id → q = p) → p.rel = none → sealFree s p = true → vbOpen b = some i → b.slots.length = vbSlots b →
      ∃ b', exec (.vsealPerform p.id) s =
          .next (setVb { s with seals := s.seals.filter (fun q => q.id ≠ p.id ∧ ∀ r ∈ rs, r.id ≠ q.id) } p.core p.buf
            ((rs.filterMap Pending.rel).foldl releaseIn b')) ∧
        b'.newest = (b.slots.getD i VSlot.empty).version ∧ (b'.slots.getD i VSlot.empty).st = .closed ∧ b'.desc = b.desc ∧
        b'.count = b.count + 1 ∧ b'.waits = b.waits ∧ ∀ j, j ≠ i → b'.slots.getD j VSlot.empty = b.slots.getD j VSlot.empty) ∧
  (∀ (s : State) (t : BitVec 3) (c : BitVec 6) (n : BitVec 3) (v : Word),
    let home := Agent.core t c
    let old := getVb s home n.toNat
    let new : VBuf := ⟨v, [], 0, 0, []⟩
    coreLayer c = 1 → (getCore s home).vbd.length = 8 →
      (v.getLsbD 63 = true → vbOn old = false → vbRejected s home n.toNat new = false →
        (∀ g, g < vbSlots new → allocHeld s (vbSlotAdr t c new g) (vbSize new * 0x4000) (vbCtx new) = false) →
        ∃ s1, exec (.vbdEnable t c n v) s = .next s1 ∧
          getVb s1 home n.toNat = { desc := v, slots := List.replicate (vbSlots new) VSlot.empty, newest := 0, count := 0, waits := [] }) ∧
      (v.getLsbD 63 = false → vbOn old = true → ∃ s1, exec (.vbdDisable t c n v) s = .next s1 ∧
        vbOn (getVb s1 home n.toNat) = false ∧ (getVb s1 home n.toNat).newest = 0 ∧ (getVb s1 home n.toNat).slots = [] ∧ (getVb s1 home n.toNat).waits = [] ∧
        ∀ p ∈ s1.seals, ¬ (p.core = home ∧ p.buf = n.toNat)))

/-- R189, R343, R344: WATCH installs the image at the lowest free entry, UNWATCH disables one, and TTREL arms an entry of the
timetable; each answers its status. -/
def Obligations.WatchResults : Prop :=
  ∀ (h : Head) (f : SysF) (s : State), Sound s →
    let k := curTask s
    let out := fun (i : Instr) (t : State) (st idx : Nat) =>
      exec i s = .next (pushScalar t 1 11 f.d.toNat (word (st * 2 ^ 56 + idx)))
    (∀ c, Ready (.watch h f) s → f.imm = 1 → endPending s (scalarIn k f.b) = false → endPoison s (scalarIn k f.b) 11 = none →
      checkBlock s 11 .load 64 1 false false (scalarIn k f.b) = .ok c → firstLost s c.adr 64 = none →
      let w := imageWords s c.adr
      let tower := if bits (w.getD 0 0) 57 56 = 0 then BitVec.ofNat 3 (w.getD 1 0 / 2 ^ 29) else agentTower s.cur
      let e := firstGap 0 (watchesOn s tower)
      (watchStatus s tower w ≠ .ok → out (.watch h f) s (watchStatus s tower w).code 0) ∧
      (watchStatus s tower w = .ok → ∃ t, out (.watch h f) t 0 e ∧
        readNat t (watchAdr tower e) 8 = w.getD 0 0 % 2 ^ 63 + 2 ^ 63 ∧
        (∀ i, 1 ≤ i → i < 5 → readNat t (watchAdr tower e + 8 * i) 8 = w.getD i 0) ∧
        ∀ i, 5 ≤ i → i < 8 → readNat t (watchAdr tower e + 8 * i) 8 = 0)) ∧
    (∀ c e, Ready (.watch h f) s → f.imm = 0 → endPending s (scalarIn k f.b) = false → endPoison s (scalarIn k f.b) 11 = none →
      checkBlock s 11 .load 64 1 false false (scalarIn k f.b) = .ok c → firstLost s c.adr 64 = none →
      let w := imageWords s c.adr
      let x := scalarIn k f.a
      let r := recReg k (endRec x)
      let hnd := handleReg k (endHnd x)
      endPending s x = false → endPoison s x 11 = none → endOk k x = true →
      ¬ (r.space = 2 ∧ hnd.valid = true ∧ handleTag (agentTower s.cur) hnd ≠ 0) →
      checkEnd s 11 .store 1 x [((endOff x : Nat), bits (w.getD 2 0) 21 0)] = .ok e →
      let tower := if r.space = 2 then agentTower s.cur else BitVec.ofNat 3 (e.adr / 2 ^ 29)
      let base := if r.space = 2 then e.adr - tmFlat tower.toNat 0 else e.adr
      let space := if r.space = 2 then 1 else 0
      let w0 := setBits (setBits (w.getD 0 0) 57 56 space) 55 44 k.ctx.toNat
      let y := watchInstall s tower ((w.set 0 w0).set 1 base)
      out (.watch h f) y.2.2 y.1.code y.2.1) ∧
    (Ready (.unwatch h f) s →
      let a := (scalarIn k f.a).toNat
      let tower := BitVec.ofNat 3 (a / 2 ^ 61)
      let e := a % 2 ^ 12
      bits a 60 12 = 0 →
        (isSup s.cur = false → watchGet s tower e 0 55 44 ≠ k.ctx.toNat → out (.unwatch h f) s Status.rights.code 0) ∧
        (isSup s.cur = true ∨ watchGet s tower e 0 55 44 = k.ctx.toNat →
          (watchGet s tower e 0 63 63 = 0 → out (.unwatch h f) s Status.state.code 0) ∧
          (watchGet s tower e 0 63 63 = 1 → ∃ t, out (.unwatch h f) t 0 0 ∧ watchGet t tower e 0 63 63 = 0 ∧
            watchGet t tower e 0x28 61 61 = 0 ∧ watchGet t tower e 0x28 63 62 = watchGet s tower e 0x28 63 62))) ∧
    (Ready (.ttrel h f) s →
      let a := (scalarIn k f.a).toNat
      let b := (scalarIn k f.b).toNat
      let tower := agentTower s.cur
      a < 2 ^ 14 → b < 2 ^ 44 →
        (ttGet s tower a 24 59 48 ≠ k.ctx.toNat → out (.ttrel h f) s Status.rights.code 0) ∧
        (ttGet s tower a 24 59 48 = k.ctx.toNat → ttGet s tower a 24 35 20 ≠ 0 → out (.ttrel h f) s Status.state.code 0) ∧
        (ttGet s tower a 24 59 48 = k.ctx.toNat → ttGet s tower a 24 35 20 = 0 → ∃ t, out (.ttrel h f) t 0 0 ∧
          ttGet t tower a 24 63 63 = 1 ∧ ttGet t tower a 16 63 32 = b % 2 ^ 32 ∧ ttGet t tower a 24 19 8 = b / 2 ^ 32 ∧
          ttGet t tower a 24 47 36 = ttGet s tower a 24 47 36 ∧ ttGet t tower a 0 63 0 = ttGet s tower a 0 63 0))

/-! ### Exceptions -/

/-- R365 to R369, R372: a compute core that takes a fault freezes at the bundle with its syndrome and its registers kept, and the
supervisor core is told, unless its tower is held in reset (log 74); a supervisor core enters its trap, or halts while it may not:
that it then keeps its pc at the faulting bundle is the model's reading (log 78). -/
def Obligations.ExceptionEntry : Prop :=
  ∀ (s : State) (f : FaultInfo),
    (∀ t c, f.tile = none →
      let a := Agent.core t c
      let x := getCore s a
      let s1 := takeFault s a f
      let y := getCore s1 a
      y.frozen = true ∧ y.live = x.live ∧ y.fadr = f.adr ∧ y.fbnd = x.task.pc ∧
        bits y.fsyn.toNat 61 61 = 1 ∧ bits y.fsyn.toNat 55 52 = f.cls.toNat ∧ bits y.fsyn.toNat 47 32 = f.code.num ∧
        bits y.fsyn.toNat 31 16 = f.detail.toNat ∧ bits y.fslt.toNat 15 8 = 0xFF ∧
        bits y.fslt.toNat 7 0 = (if f.cls = 5 then 0xFF else f.slot.toNat) ∧
        y.task.pc = x.task.pc ∧ y.task.s = x.task.s ∧ y.task.v = x.task.v ∧ y.task.due = x.task.due ∧ y.task.rings = x.task.rings ∧
        (Sound s → SameBytesBut [(poolFlat t (0x2800000 + c.toNat * 0x10000), 0x10000)] s s1) ∧ (∀ b, coreKey b ≠ coreKey a → b ≠ .sup t → getCore s1 b = getCore s b) ∧
        ((getTower s t).inReset = false → ∃ e ∈ (getTower s1 t).evq, evCode e = 0x41 ∧ e.fbnd.toNat = x.task.num.toNat ∧ bits e.fslt.toNat 15 8 = c.toNat)) ∧
    (∀ t, f.tile = none →
      let a := Agent.sup t
      let u := (getTower s t).sup
      let s1 := takeFault s a f
      (u.sstat.getLsbD 0 = true →
        (getCore s1 a).task.pc = u.stvec ∧ (getTower s1 t).sup.sepc = (getCore s a).task.pc ∧
        (getTower s1 t).sup.sstat = 2 ∧ (getCore s1 a).fadr = f.adr ∧ (getCore s1 a).fbnd = (getCore s a).task.pc ∧
        bits (getCore s1 a).fsyn.toNat 47 32 = f.code.num ∧ bits (getCore s1 a).fsyn.toNat 55 52 = f.cls.toNat ∧
        (getTower s1 t).sup.halted = u.halted ∧ (getCore s1 a).task.s = (getCore s a).task.s) ∧
      (u.sstat.getLsbD 0 = false → (getTower s1 t).sup.halted = true ∧ (getCore s1 a).task.pc = (getCore s a).task.pc)) ∧
    (∀ t e l, (getTower s t).evq = e :: l → mayTrap s t = true → ∃ s1, exec (.supervisorTrapEntry t) s = .next s1 ∧
      (getTower s1 t).evq = l ∧ (getTower s1 t).sup.sepc = (getCore s (.sup t)).task.pc ∧
      (getCore s1 (.sup t)).task.pc = (getTower s t).sup.stvec ∧ (getTower s1 t).sup.sstat = 2 ∧
      (getCore s1 (.sup t)).fadr = e.fadr ∧ (getCore s1 (.sup t)).fbnd = e.fbnd ∧ (getCore s1 (.sup t)).fslt = e.fslt) ∧
    (∀ t e l, (getTower s t).heldTraps = e :: l → (trapCount (getTower s t).evq < 4 ∨ generalFull (getTower s t).evq = false) →
      ∃ s1, exec (.heldTrapRetry t) s = .next s1 ∧ (getTower s1 t).heldTraps = l ∧ e ∈ (getTower s1 t).evq ∧
        (getTower s1 t).sup.evBit = true ∧ s1.cores = s.cores) ∧
    (∀ t c, let x := getCore s (.core t c)
      x.live = true → x.frozen = false → x.task.group = 0 → x.task.trapDue ≠ 0 → x.task.drainTo = none →
      ∃ s1, exec (.budgetTrap t c) s = .next s1 ∧
        let y := getCore s1 (.core t c)
        y.frozen = true ∧ y.live = true ∧ bits y.fsyn.toNat 47 32 = 0x20 ∧ bits y.fsyn.toNat 55 52 = 5 ∧
          bits y.fsyn.toNat 31 16 = x.task.trapDue.toNat ∧ y.fbnd = x.task.pc ∧ y.task.trapDue = 0 ∧
          ((getTower s t).inReset = false → (getTower s1 t).wridx = (getTower s t).wridx + 2))

/-! ### Events of the scheduler -/

/-- R142, R143, R341, R352 to R358: a launch enters its bank as a task or is refused, a free core, or the one that R355 prefers (log
59), takes the entry its pop chose, a back-off ends, and idle cores may ask again (log 130), a drained claim places its gang, and a
pre-empted task is saved with its registers. The placements and the claim are those of tasks whose save slots can be translated and
have lost nothing (R375, R378). -/
def Obligations.SchedulerEvents : Prop :=
  ∀ (s : State) (t : BitVec 3),
    let w := getTower s t
    (∀ (l : Launch) (d : Nat) (bank : BitVec 4),
      w.launches.find? (fun x => x.id = l.id) = some l → (∀ x ∈ s.acc, x.id ∉ l.after) → launchBehind l w = false →
      let gone := setTower s t { w with launches := w.launches.filter (fun x => x.id ≠ l.id) }
      (readDescs s t l.ctx l.index = .ok [d] → descSolo d = true → bankLoad w bank.toNat < 1024 →
        ∃ u num k, exec (.taskLaunch t l.id bank) s = .next u ∧ (∀ x ∈ (getTower u t).launches, x.id ≠ l.id) ∧
          (getTower u t).ready = w.ready ++ [{ num := num, bank := bank.toNat, entry := s.pkg.cyc, age := 0, fails := 0, backoff := none, skip := false }] ∧
          mapGet? u.tasks num.toNat = some k ∧ num.toNat / 2 ^ 29 = t.toNat ∧ k.num = num ∧ k.ctx = l.ctx ∧ k.status = .ready ∧
          k.pc.toNat = bits d 255 192 ∧ scalarReg k 1 = word (l.coord.toNat / 2 ^ 32) ∧
          scalarReg k 2 = word (l.coord.toNat / 2 ^ 16 % 2 ^ 16) ∧ scalarReg k 3 = word (l.coord.toNat % 2 ^ 16) ∧
          scalarReg k 4 = l.arg ∧ scalarReg k 5 = word (l.path.code * 2 ^ 62 + bits d 109 106 * 2 ^ 8) ∧
          (k.counted = true ↔ bits d 159 128 ≠ 0) ∧ k.tbud = word (bits d 159 128)) ∧
      (∀ r, readDescs s t l.ctx l.index = .error r → (l.path = .spawn ∨ l.path = .supervisor) →
        exec (.taskLaunch t l.id bank) s = .next (replyLaunch gone l (word (2 ^ 63 + r))))) ∧
    (∀ (c : BitVec 6) (i j : BitVec 4) (delay : Nat),
      let x := getCore s (.core t c)
      x.live = false → x.asked = false → x.reserved = none → i ≠ j →
        (popChoice s t c i.toNat j.toNat = none →
          ((∀ z ∈ w.ready, z.entry ≠ s.pkg.cyc) → exec (.pop t c i j delay) s = .next (setCore s (.core t c) { x with asked := true })) ∧
          ((∃ z ∈ w.ready, z.entry = s.pkg.cyc) → exec (.pop t c i j delay) s = .next s)) ∧
        (∀ e k, popChoice s t c i.toNat j.toNat = some e → entryGang s e.num = false → mapGet? s.tasks e.num.toNat = some k →
          slotsOpen s t e.num = true → (entryTasks s e.num).any (slotLost s t) = false →
          ∃ u, exec (.pop t c i j delay) s = .next u ∧
            let y := getCore u (.core t (popTarget s t c k))
            y.live = true ∧ y.frozen = false ∧ y.task.status = .placed ∧ y.task.num = k.num ∧ y.task.pc = k.pc ∧ y.task.s = k.s ∧
              y.task.v = k.v ∧ y.task.tbud = k.tbud ∧ ∀ z ∈ (getTower u t).ready, z.num ≠ e.num)) ∧
    (∀ (num : BitVec 32) (e : REntry) (b : Word), e ∈ w.ready → e.num = num → e.backoff = some b → b.toNat ≤ s.pkg.cyc.toNat →
      ∃ u, exec (.gangBackoffExpiry t num) s = .next u ∧
        (getTower u t).ready = w.ready.map (fun x => if x.num = num then { x with backoff := none } else x) ∧
        ∀ c, (getCore u (.core t c)).asked = false) ∧
    (∀ (cluster : BitVec 3) (x : Claim),
      let codes := claimCodes s w x.lead
      w.claims.find? (fun y => y.cluster = cluster.toNat) = some x → codes ≠ [] →
      budOpen s t (((entryTasks s x.lead).map (fun k => k.ctx)).headD 0) = true →
      slotsOpen s t x.lead = true → (entryTasks s x.lead).any (slotLost s t) = false →
      (∀ y ∈ codes, (getCore s (.core t y.2)).reserved = some x.lead ∧ (mapGet? s.tasks y.1.toNat).isSome = true) →
      (codes.map Prod.fst).Nodup →
        ∃ u, exec (.drainClaimCommit t cluster) s = .next u ∧ ∀ y ∈ codes, (getCore u (.core t y.2)).live = true) ∧
    (∀ (c : BitVec 6) (ps : List Nat),
      let x := getCore s (.core t c)
      let k := x.task
      let n := firstGap 0 (slotsHeld s t k.ctx)
      x.live = true → x.preempt = true → x.kill = false → x.frozen = false → k.group = 0 → k.trapDue = 0 →
      saveReady s (.core t c) = true → w.ready.length < 16384 → n < 4096 → slotPieces s t k.ctx n = some ps →
        ∃ u k', exec (.preemption t c) s = .next u ∧ (getCore u (.core t c)).live = false ∧
          mapGet? u.tasks k.num.toNat = some k' ∧ k'.status = .ready ∧ k'.slot = some n ∧ k'.pc = k.pc ∧ k'.s = k.s ∧ k'.v = k.v ∧
          k'.q = k.q ∧ k'.c = k.c ∧ k'.a = k.a ∧ k'.b = k.b ∧ k'.h = k.h ∧ k'.due = k.due ∧ k'.loops = k.loops ∧ k'.arr = k.arr ∧
          k'.rings = Rings.empty)

/-- R60, R179, R183, R191, R193, R313: each of these completes in every state in which its moment has come: the frame start; the release
tick, of an armed entry that is due and of one that is not; the oldest trigger of a watch; the arbitration of a grant window; the start
of a bus epoch. -/
def Obligations.ClockEvents : Prop :=
  ∀ s : State, Sound s →
    (s.pkg.cyc.toNat < s.pkg.fstart.toNat + fper s → exec .frameStart s = .next s) ∧
    (s.pkg.fstart.toNat + fper s ≤ s.pkg.cyc.toNat → ∃ u, exec .frameStart s = .next u ∧ u.pkg.frame = s.pkg.frame + 1 ∧
      u.pkg.fstart.toNat = s.pkg.fstart.toNat + fper s ∧ u.pkg.frmNow = s.pkg.frmcfg ∧ u.pkg.cyc = s.pkg.cyc ∧ u.corr = []) ∧
    (∀ (t : BitVec 3) (e : Nat),
      let w := getTower s t
      let k := curTick s
      w.scanned ≠ some (s.pkg.frame, k) → w.scanFrom = none → w.stall = none → ttHolds w = false → ttArmed s t = [e] → e < 2 ^ 14 →
      ttReserved s t e = false → ttGet s t e 24 19 8 < tpf s →
        (ttDue s t k e = false → ∃ u, exec (.releaseTick t) s = .next u ∧ (getTower u t).launches = w.launches ∧ u.mem = s.mem) ∧
        (ttDue s t k e = true → ∃ u l, exec (.releaseTick t) s = .next u ∧ (getTower u t).scanned = some (s.pkg.frame, k) ∧
          (getTower u t).launches.getLast? = some l ∧ l.ctx.toNat = ttGet s t e 24 59 48 ∧ l.index = ttGet s t e 24 47 36 ∧
          l.arg.toNat = readNat s (ttAdr t e) 8 ∧ l.coord.toNat = ttGet s t e 16 31 0 * 2 ^ 16 + ttGet s t e 8 63 48 ∧
          l.path = .timetable ∧
          (ttGet s t e 24 35 20 = 0 → ttGet u t e 24 63 63 = 0) ∧
          (ttGet s t e 24 35 20 ≠ 0 → ttGet u t e 24 63 63 = 1 ∧ ttDue u t k e = false))) ∧
    (∀ (t : BitVec 3) (r : Trig) (l : List Trig),
      let w := getTower s t
      let e := r.entry
      let limit := watchGet s t e 0 31 16
      let n := min (watchGet s t e 0x28 47 32 + 1) 0xFFFF
      let st := watchSt s t e
      w.trigs = r :: l → e < 4096 → ∃ u, exec (.watchTrigger t) s = .next u ∧ (getTower u t).trigs = l ∧
        (watchGet s t e 0x28 60 60 = 1 →
          watchGet u t e 0x28 31 16 = min (watchGet s t e 0x28 31 16 + 1) 0xFFFF ∧ (getTower u t).launches = w.launches) ∧
        (watchGet s t e 0x28 60 60 = 0 →
          watchGet u t e 0x28 47 32 = n ∧
          (limit < n → watchGet u t e 0x28 60 60 = 1 ∧ (getTower u t).launches = w.launches ∧
            (w.inReset = false → (getTower u t).wridx = w.wridx + 1)) ∧
          (n ≤ limit → watchMode s t e = 2 ∨ st = 0 → ∃ x, (getTower u t).launches = w.launches ++ [x] ∧ x.path = .watch ∧
            x.source = .watch e ∧ x.index = watchGet s t e 0 43 32 ∧ x.ctx.toNat = watchGet s t e 0 55 44 ∧
            (watchMode s t e ≠ 2 → watchSt u t e = 1)) ∧
          (n ≤ limit → watchMode s t e ≠ 2 → st ≠ 0 → (getTower u t).launches = w.launches ∧
            (st = 1 → watchGet u t e 0x28 61 61 = watchGet s t e 0x28 61 61) ∧ (st = 2 → watchGet u t e 0x28 61 61 = 1)))) ∧
    (∀ (t cluster : BitVec 3) (col : BitVec 2),
      let da := Agent.core t (coreCode 0 cluster.toNat col.toNat)
      let ca := Agent.core t (coreCode 1 cluster.toNat col.toNat)
      s.pkg.cyc.toNat % 64 = 0 → ∃ u, exec (.grantWindow t cluster col) s = .next u ∧
        let d := getCore u da
        let c := getCore u ca
        (asksWindow s da = true → asksWindow s ca = true →
          ((d.rate = .half ∧ d.lost = true ∧ c.rate = .full ∧ c.lost = false) ∨
            (c.rate = .half ∧ c.lost = true ∧ d.rate = .full ∧ d.lost = false)) ∧
          ((getCore s da).lost = true → (getCore s ca).lost = false → d.rate = .full) ∧
          ((getCore s ca).lost = true → (getCore s da).lost = false → c.rate = .full) ∧
          ((getCore s ca).lost = false → (getCore s da).lost = false →
            (c.rate = .full ↔ grantRelease s ca ≤ grantRelease s da))) ∧
        (asksWindow s da = false ∨ asksWindow s ca = false → d.rate = .full ∧ c.rate = .full ∧ d.lost = false ∧ c.lost = false)) ∧
    (∀ (t : BitVec 3) (layer : BitVec 1) (cluster : BitVec 3), ∃ u, exec (.busEpochStart t layer cluster) s = .next u ∧
      u = { s with buses := u.buses } ∧ u.buses.length = s.buses.length ∧
      ∀ (n : Nat) (g g' : BusGrp), s.buses[n]? = some g → u.buses[n]? = some g' →
        (¬ (g.tower = t ∧ g.layer = layer ∧ g.cluster = cluster ∧ g.members ≠ [] ∧ ∀ m ∈ g.members, m.next.isSome = true) → g' = g) ∧
        ((g.tower = t ∧ g.layer = layer ∧ g.cluster = cluster ∧ g.members ≠ [] ∧ ∀ m ∈ g.members, m.next.isSome = true) →
          g'.slice = none ∧ g'.ahead = [] ∧ g'.members.length = g.members.length ∧
          ∀ (i : Nat) (m m' : BusMember), g.members[i]? = some m → g'.members[i]? = some m' →
            m'.cfg = m.next ∧ m'.next = none ∧ m'.taken = 0))

/-! ### Events of streams, frames and time -/

/-- R134 to R137, R185, R187, R382: check points and ticks of a stream, the end of a silence eviction, a restore, and a stream
frame that finds its stream active and its chunk free. That a restored stream is found at the table entry of its new slot, that a frame
with a wrong FCS is not counted, and that ingress writes a frame line by line, its status line last, are the model's readings
(logs 36, 94, 128). -/
def Obligations.StreamEvents : Prop :=
  ∀ (s : State) (t : BitVec 3), Sound s →
    (∀ slot : BitVec 10,
      let n := slot.toNat
      let w := getTower s t
      let q := stGet s t n 0x48 63 32
      let shifts := stGet s t n 0x48 31 28
      stActive s t n = true →
        ((n ∈ w.checked ∨ ptpt s + stGuard s t n < stNext s t n) → exec (.streamCheckPoint t slot) s = .next s) ∧
        (n ∉ w.checked → stNext s t n ≤ ptpt s + stGuard s t n → ∃ u f, exec (.streamCheckPoint t slot) s = .next u ∧
          (getTower u t).checked = w.checked ++ [n] ∧ (getTower u t).fires = w.fires ++ [f] ∧ f.slot = n ∧
          (chunkPresent s t n q = false → stGet s t n 0 20 20 = 1 → shifts < stGet s t n 0 19 16 →
            f.launch = false ∧ stGet u t n 0x48 31 28 = shifts + 1 ∧ stGet u t n 0x48 63 32 = q) ∧
          ((chunkPresent s t n q = true ∨ stGet s t n 0 20 20 = 0 ∨ stGet s t n 0 19 16 ≤ shifts) →
            f.launch = true ∧ f.arg.toNat / 2 ^ 32 = q ∧ (f.arg.getLsbD 31 = true ↔ chunkPresent s t n q = false) ∧
            stGet u t n 0x48 63 32 = (q + 1) % 2 ^ 32 ∧ stGet u t n 0x10 63 32 = (q + 1) % 2 ^ 32 ∧ stGet u t n 0x48 31 28 = 0 ∧
            stGet u t n 0x48 15 0 = if chunkPresent s t n q then stGet s t n 0x48 15 0 else min (stGet s t n 0x48 15 0 + 1) 0xFFFF)) ∧
        (∀ f, n ∈ w.checked → stNext s t n ≤ ptpt s → w.fires.find? (fun f => f.slot = n) = some f →
          (reqOpen s t (stReq s t n) = false ∨ reqWin s t (stReq s t n) = false) →
          stNext s t n + stPeriod s t n < 2 ^ 64 → ptpt s + stGuard s t n ≤ stNext s t n + stPeriod s t n →
            ∃ u, exec (.streamTick t slot) s = .next u ∧ stNext u t n = stNext s t n + stPeriod s t n ∧ n ∉ (getTower u t).checked ∧
              (f.launch = false → (getTower u t).launches = w.launches) ∧
              (f.launch = true → ∃ l, (getTower u t).launches = w.launches ++ [l] ∧ l.arg = f.arg ∧ l.ctx = stCtx s t n ∧
                l.index = stGet s t n 0x38 11 0 ∧ l.path = .timetable))) ∧
    (∀ (slot : BitVec 10) (a : Nat),
      let n := slot.toNat
      n < 768 → n ∈ (getTower s t).silent → slotBusy s t n = false → saveHeld s t n = false →
      saveAreaOf s t n 14 = some a → isTm a = true →
      isTm (a + 0x7FFF) = true →
        ∃ u, exec (.streamEviction t slot) s = .next u ∧ n ∉ (getTower u t).silent ∧
          streamState u t n = (if heldOf s t n = [] then 2 else 3) ∧
          ∀ i, i < 0x8000 → readByte u (a + i) = readByte s (slotAdr t n + i)) ∧
    (∀ (slot : BitVec 10) (k a : Nat),
      let n := slot.toNat
      n < 768 → stOn s t n = true → streamState s t n = 3 → n ∈ (getTower s t).restores → lowestSlot s t = some k →
      saveAreaOf s t n 15 = some a → allocHeld s (slotAdr t k) 0x8000 (stCtx s t n) = false → rangeHeld s a 0x8000 = false →
        ∃ u, exec (.streamRestore t slot) s = .next u ∧ stOn u t k = true ∧ streamState u t k = 0 ∧ stGet u t k 0 9 0 = k ∧
          stGet u t k 0 47 32 = stGet s t n 0 47 32) ∧
    (∀ (port : BitVec 1) (bytes : List Byte) (n : Nat),
      let p := if beNat (slice bytes 12 2) = 0x8100 then 16 else 12
      let h := p + 2
      let tw := BitVec.ofNat 3 (beNat (slice bytes (h + 1) 1))
      let id := beNat (slice bytes (h + 2) 2)
      let q := beNat (slice bytes (h + 4) 4)
      let line := slotAdr tw n + 0x200 + 0x40 * (q % 2)
      let data := bytes.drop (h + 20)
      exec (.ethFrameReceive port false bytes) s = .next s ∧
      (isPtp bytes p = true → exec (.ethFrameReceive port true bytes) s = .next s) ∧
      (isPtp bytes p = false → (9216 < bytes.length + 4 ∨ beNat (slice bytes p 2) ≠ 0x88B5 ∨ streamHeaderOk bytes h = false) →
        exec (.ethFrameReceive port true bytes) s = .next (modTower s 0 (fun w => { w with discards := w.discards + 1 }))) ∧
      (isPtp bytes p = false → bytes.length + 4 ≤ 9216 → beNat (slice bytes p 2) = 0x88B5 → streamHeaderOk bytes h = true →
        (getTower s tw).inReset = false → (streamsOn s tw).find? (fun n => stGet s tw n 0 47 32 = id) = some n → streamState s tw n = 0 →
        0 ≤ signed 32 (q + 2 ^ 32 - stExp s tw n) →
        (∀ x ∈ (getTower s tw).landing, x.frame.slot = n → x.frame.seq.toNat % 2 ≠ q % 2) →
        (bits (readNat s line 8) 31 30 = 0 ∨
          signed 32 (bits (readNat s line 8) 63 32 + 2 ^ 32 - readNat s (slotAdr tw n + 0x280) 4) ≤ 0) →
          exec (.ethFrameReceive port true bytes) s = .next (modTower { s with nextId := s.nextId + 1 } tw (fun w =>
            { w with landing := w.landing ++ [⟨s.nextId, ⟨n, BitVec.ofNat 32 q, word (beNat (slice bytes (h + 8) 8)), data⟩, [], []⟩] })))) ∧
    (∀ (id : Nat) (l : List Move), s.inputs = [] → s.moves = .frameLand t id :: l →
      step s = .next (frameLand t id { s with moves := l })) ∧
    (∀ (id : Nat) (x : Landing),
      let f := x.frame
      let line := slotAdr t f.slot + 0x200 + 0x40 * (f.seq.toNat % 2)
      let data := slotAdr t f.slot + 0x400 + 0x2000 * (f.seq.toNat % 2)
      (getTower s t).landing.find? (fun y => y.id = id) = some x → f.slot < 768 → f.bytes.length ≤ 8192 →
        let u := frameLand t id s
        (∀ y ∈ (getTower u t).landing, y.id ≠ id) ∧ u.cores = s.cores ∧ u.pkg = s.pkg ∧
        (∀ i, i < f.bytes.length → readByte u (data + i) = if i / 64 ∈ x.put then readByte s (data + i) else f.bytes.getD i 0) ∧
        readNat u line 8 = f.seq.toNat * 2 ^ 32 + 2 ^ 30 + f.bytes.length ∧ readNat u (line + 8) 8 = f.time.toNat ∧
        stGet u t f.slot 0x18 63 0 = f.time.toNat)

/-- R178, R383: a set of PTP timestamps gives the offset, counts towards the lock, and drives the servo in hardware mode; a disabled
port measures none (what bit of its configuration disables it is the model's free choice, log 118); without a master the lock falls. -/
def Obligations.TimeEvents : Prop :=
  ∀ s : State,
    (∀ (port : BitVec 1) (t1 t2 t3 t4 : Word),
      let x := ((t2 - t1).toInt - (t4 - t3).toInt) / 2
      let good := if x.natAbs ≤ 1000 then min (s.pkg.good + 1) 16 else 0
      (ptpOff s port = true → exec (.ptpMessage port t1 t2 t3 t4) s = .next s) ∧
      (ptpOff s port = false → ∃ u, exec (.ptpMessage port t1 t2 t3 t4) s = .next u ∧ u.pkg.port = port ∧ u.pkg.good = good ∧
        (u.pkg.lock = true ↔ good = 16) ∧ u.pkg.offset.toInt = max (-(2 ^ 31)) (min (2 ^ 31 - 1) x) ∧ u.pkg.cyc = s.pkg.cyc ∧
        ((getTower s 0).fmr.getLsbD 6 = true →
          u.pkg.tofs = s.pkg.tofs ∧ u.pkg.trate = s.pkg.trate ∧
            ((getTower s 0).inReset = false → (getTower u 0).wridx = (getTower s 0).wridx + 2)) ∧
        ((getTower s 0).fmr.getLsbD 6 = false →
          (x.natAbs ≤ 1000000 → u.pkg.tofs = s.pkg.tofs ∧ -200000 ≤ (u.pkg.trate.setWidth 32).toInt ∧
            (u.pkg.trate.setWidth 32).toInt ≤ 200000) ∧
          (1000000 < x.natAbs → u.pkg.tofs = s.pkg.tofs - BitVec.ofInt 64 x ∧ u.pkg.stepped = true ∧ u.pkg.trate = s.pkg.trate)))) ∧
    ∃ u, exec .ptpMasterLost s = .next u ∧ u.pkg.lock = false ∧ u.pkg.port = s.pkg.port ∧ u.pkg.offset = s.pkg.offset ∧
      u = { s with pkg := u.pkg }

/-! ### Events of memory -/

/-- R26, R27, R69, R71, R92, R93, R378: an access is performed at its home, pending zeroing ends, a page-in and an eviction switch
their entry, and an error at rest poisons, marks, kills or counts. -/
def Obligations.MemoryEvents : Prop :=
  ∀ s : State, Sound s → s.freeing = [] →
    (∀ (x : Access) (g : Gran),
      let left := sweepMarks (s.acc.filter (fun y => y.id ≠ x.id))
      s.acc.find? (fun y => y.id = x.id) = some x → isAccess x = true → x.grans = [g] → x.slot ≠ 7 → granFree s x g = true →
      (∀ y ∈ mates s x, ∀ k ∈ y.grans, k.adr / 8 ≠ g.adr / 8) → badRange s g.adr g.len = false →
        (∀ r, x.op = .loadV r → x.hits = [] → x.bad = none → 8 * (g.off + g.len) ≤ 16384 → stillThere s x.who x.num = true →
          ∃ u v, exec (.accessPerformedAtHome x.id none .none) s = .next u ∧ u.acc = left ∧ u.mem = s.mem ∧
            (∃ d ∈ (getCore u x.who).task.due, d.dst = .vector (some r) v ∧ d.poisoned = none ∧ d.born = x.born) ∧
            v.toNat / 2 ^ (8 * g.off) % 2 ^ (8 * g.len) = readNat s g.adr g.len ∧
            v.toNat % 2 ^ (8 * g.off) = x.buf.toNat % 2 ^ (8 * g.off)) ∧
        (∀ d, x.op = .store d → mates s x = [] → lostAt s g.adr = false →
          ∃ u, exec (.accessPerformedAtHome x.id none .none) s = .next u ∧ u.acc = left ∧ u.cores = s.cores ∧
            SameBytesBut [(g.adr, g.len)] s u ∧
            ∀ i, i < g.len → writable (g.adr + i) = true →
              readByte u (g.adr + i) = BitVec.ofNat 8 (d.toNat / 2 ^ (8 * (g.off + i))))) ∧
    (∀ (a : Nat) (z : ZRange), s.zero.find? (fun z => decide (z.base ≤ a) && decide (a < z.base + z.len)) = some z →
      ∃ u, exec (.backgroundZeroing a) s = .next u ∧ u = { s with zero := u.zero } ∧ (z.page = true → z ∉ u.zero) ∧
        (z.page = false → z.base % 64 = 0 → zeroPending u (a / 64 * 64) 64 = false)) ∧
    (∀ (g : Paging) (new e : Nat), g.new = some new → g.ref = .index e → e < 8192 → g.pool < 64 → new < 2 ^ 30 →
      let word' := fun (u : State) => readNat u (pfxAdr g.tower e + 0x18) 8
      let page := poolPage s g.tower g.pool
      let open' := fun (out : Bool) => rangeHeld s (pagingEnds s g out new).1 page = false ∧ rangeHeld s (pagingEnds s g out new).2 page = false
      (g.live = true → s.pageIns.find? (fun h => h.id = g.id) = some g → open' false → ∃ u, exec (.pageInSwitch g.id) s = .next u ∧
        (∀ h ∈ u.pageIns, h.id ≠ g.id) ∧ entTier (word' u) = 0 ∧ entPgin (word' u) = false ∧ entBase (word' u) = new ∧
        bits (word' u) 15 0 = s.pkg.frame.toNat % 2 ^ 16 ∧ entV (word' u) = entV (word' s) ∧
        ∀ num ∈ g.waiters, ∀ k, findTask u num = some k → k.evp = true) ∧
      (g.live = true → s.evicts.find? (fun h => h.id = g.id) = some g → open' true → evictStays s g = false → ∃ u, exec (.evictionSwitch g.id) s = .next u ∧
        (∀ h ∈ u.evicts, h.id ≠ g.id) ∧ entTier (word' u) = 1 ∧ entEvic (word' u) = false ∧ entBase (word' u) = new ∧
        entV (word' u) = entV (word' s))) ∧
    (∀ (t : BitVec 3) (g : Paging), s.pageIns.filter (fun g => decide (g.tower = t) && g.live) = [g] →
      ((g.new.isSome = true ∨ g.assisted = true) → exec (.evictionRetry t) s = .next s) ∧
      (∀ b s1, g.new = none → g.assisted = false → allocPage s g.tower g.pool 0 = some (b, s1) →
        exec (.evictionRetry t) s =
          .next { s1 with pageIns := s1.pageIns.map (fun h => if h.id = g.id then { h with new := some b } else h) })) ∧
    (∀ (t : BitVec 3) (c : BitVec 6) (r : BitVec 10) (z : BitVec 3) (a n : Nat) (who : Agent),
      let x := getCore s (.core t c)
      (∃ u, exec (.softErrorAtRest (.vector t c r) true) s = .next u ∧
        poisonOf (getCore u (.core t c)).task (.vector r.toNat) = some 0 ∧ u.mem = s.mem) ∧
      (∃ u, exec (.softErrorAtRest (.tile t c z) true) s = .next u ∧
        poisonOf (getCore u (.core t c)).task (.tile z.toNat) = some 0 ∧ u.mem = s.mem) ∧
      (∃ u, exec (.softErrorAtRest (.vector t c r) false) s = .next u ∧ u = { s with corr := u.corr }) ∧
      (bufferFull x = true → findPlaced s x.task.num = some (.core t c) → (x.frozen = true ∨ x.task.group = 0) →
        ∃ u, exec (.softErrorAtRest (.snapshot t c) true) s = .next u ∧ (getCore u (.core t c)).live = false) ∧
      (bufferFull x = false → exec (.softErrorAtRest (.snapshot t c) true) s = .next s) ∧
      (∃ u, exec (.softErrorAtRest (.granule a) true) s = .next u ∧ a / 8 ∈ u.bad ∧ u = { s with bad := u.bad }) ∧
      (∃ u, exec (.softErrorAtRest (.cacheLine who n) true) s = .next u ∧
        (getCore u who).ic = (getCore s who).ic.eraseIdx n ∧ u.mem = s.mem))

/-- R81 to R83, R87, R88: a write of an object-table entry with its status, generation and revocation, an invalidation of cached
translations and live handles, and the ends of both. -/
def Obligations.InvalidationEvents : Prop :=
  ∀ (s : State) (t : BitVec 3),
    let w := getTower s t
    (∀ v : Word,
      let ctx : BitVec 12 := v.extractLsb' 16 12
      let index : BitVec 16 := v.extractLsb' 0 16
      let staged := (w.otd.getD 0 0).toNat + (w.otd.getD 1 0).toNat * 2 ^ 64 + (w.otd.getD 2 0).toNat * 2 ^ 128 +
        (w.otd.getD 3 0).toNat * 2 ^ 192
      Sound s → v.getLsbD 63 = true → bits v.toNat 62 28 = 0 → w.otPend = none →
        (entryFlat s t ctx index = none → exec (.otw t v) s = .next (setTower s t { w with otSt := 8, otPend := none })) ∧
        (∀ a, entryFlat s t ctx index = some a →
          let gen := bits (readNat s a 32) 63 48
          (otwStatus ctx staged gen ≠ 0 →
            exec (.otw t v) s = .next (setTower s t { w with otSt := BitVec.ofNat 8 (otwStatus ctx staged gen), otPend := none })) ∧
          (otwStatus ctx staged gen = 0 → ∃ u, exec (.otw t v) s = .next u ∧ (getTower u t).otSt = 0 ∧
            (getTower u t).otPend = some ⟨ctx, index, s.nextId⟩ ∧
            bits (readNat u a 32) 63 48 = gen + 1 ∧ bits (readNat u a 32) 47 32 = index.toNat ∧
            bits (readNat u a 32) 31 20 = ctx.toNat ∧ bits (readNat u a 32) 19 0 = bits staged 19 0 ∧
            bits (readNat u a 32) 255 64 = bits staged 255 64 ∧
            ∀ who, ∀ x ∈ (getCore u who).task.b, x.2.loaded = true → x.2.ctx = ctx.toNat → x.2.index = index.toNat → x.2.revoked = true))) ∧
    (∀ p, w.otPend = some p →
      exec (.otwBusyClear t) s = .next (if recInUse s p then s else setTower s t { w with otPend := none })) ∧
    (∀ v : Word,
      let ctx : BitVec 12 := v.extractLsb' 0 12
      let size := pageSize (bits v.toNat 60 59)
      let lo := bits v.toNat 51 16 * 2 ^ 16 / size * size
      let kept := fun (u : State) (stays : TcEntry → Prop) =>
        ∀ who, ∀ e, e ∈ (getCore u who).tc ↔ e ∈ (getCore s who).tc ∧ stays e
      let ended := fun (u : State) => u.pkg.xinv.isSome = true ∧ u.mem = s.mem ∧ u.towers = s.towers
      v.getLsbD 63 = true → bits v.toNat 58 52 = 0 → bits v.toNat 15 12 = 0 → bits v.toNat 60 59 ≠ 3 → s.pkg.xinv = none →
        (bits v.toNat 62 61 = 0 → ∃ u, exec (.xinvPage t v) s = .next u ∧ ended u ∧ epochOf u ctx = epochOf s ctx + 1 ∧
          kept u (fun e => ¬ (e.ctx = ctx ∧ e.vpage.toNat * 2 ^ 16 < lo + size ∧
            lo < e.vpage.toNat * 2 ^ 16 + pageSize e.size.toNat))) ∧
        (bits v.toNat 62 61 = 1 → ∃ u, exec (.xinvContext t v) s = .next u ∧ ended u ∧ epochOf u ctx = epochOf s ctx + 1 ∧
          (∀ c, c ≠ ctx → epochOf u c = epochOf s c) ∧ kept u (fun e => e.ctx ≠ ctx) ∧
          ∀ who, ∀ x ∈ (getCore u who).task.h, x.2.field 113 102 = ctx.toNat → x.2.valid = false) ∧
        (bits v.toNat 62 61 = 2 → ∃ u, exec (.xinvAll t v) s = .next u ∧ ended u ∧ (∀ c, epochOf u c = epochOf s c + 1) ∧
          kept u (fun _ => False) ∧ ∀ who, ∀ x ∈ (getCore u who).task.h, x.2.valid = false)) ∧
    (∀ x, s.pkg.xinv = some x →
      exec .xinvDone s = .next (if hndInUse s x then s else { s with pkg := { s.pkg with xinv := none } }))

/-! ### Events of spires, heat and power -/

/-- R64 to R67: what retires a spire, what a spare takes over and what a carrier takes over, and the steps of a buffer's
migration. R362, R363, R395, R396: samples of the sensors, the timers of the clock steps, and the withheld cycles of the
power limit. That errors counted on a spared spire retire it again, that a failed lane retires it whatever the threshold, and that a
tower held in reset retires none and takes a reading alone, are the model's readings (logs 73, 132, 74). -/
def Obligations.SpireAndThermalEvents : Prop :=
  (∀ (s : State) (t : BitVec 3),
     let w := getTower s t
     let begins := fun (u : State) (n : BitVec 5) (a : RetireAction) => ∃ r : Retire,
       u = setTower s t { w with retires := w.retires ++ [r] } ∧ r.spire = n ∧ r.action = a ∧ r.moved = false
     (∀ (n : BitVec 5) (errors : BitVec 16),
       let limit := bits w.spThr.toNat 15 0
       let idle := w.inReset = false ∧ w.rerouted.getLsbD n.toNat = false ∧ ∀ r ∈ w.retires, r.spire ≠ n
       (w.inReset = true → exec (.spireErrorThreshold t n errors) s = .next s ∧ exec (.spireLaneFail t n) s = .next s) ∧
       ((limit = 0 ∨ errors.toNat < limit) → exec (.spireErrorThreshold t n errors) s = .next s) ∧
       (limit ≠ 0 → limit ≤ errors.toNat → idle → w.fmr.getLsbD 7 = false → ∃ u,
         exec (.spireErrorThreshold t n errors) s = .next u ∧ begins u n .decide) ∧
       (idle → w.fmr.getLsbD 7 = false → ∃ u, exec (.spireLaneFail t n) s = .next u ∧ begins u n .decide) ∧
       (idle → w.fmr.getLsbD 7 = true → ∃ u, exec (.spireLaneFail t n) s = .next u ∧ (getTower u t).retires = w.retires ∧
         (getTower u t).wridx = w.wridx + 1)) ∧
     (∀ v : Word,
       let n := bits v.toNat 4 0
       v.getLsbD 63 = true → bits v.toNat 60 58 = 0 → bits v.toNat 55 13 = 0 → bits v.toNat 7 5 = 0 → spireRetired w n = false →
         (bits v.toNat 62 61 = 0 → ∃ u, exec (.sprqDecide t v) s = .next u ∧ begins u (BitVec.ofNat 5 n) .decide) ∧
         (bits v.toNat 62 61 = 1 → w.spFree.getLsbD (bits v.toNat 57 56) = true →
           ∃ u, exec (.sprqSpare t v) s = .next u ∧ begins u (BitVec.ofNat 5 n) (.spare (v.extractLsb' 56 2))) ∧
         (bits v.toNat 62 61 = 2 → bits v.toNat 12 8 ∈ carriersOf w n →
           ∃ u, exec (.sprqReroute t v) s = .next u ∧ begins u (BitVec.ofNat 5 n) (.reroute (v.extractLsb' 8 5)))) ∧
     (∀ (r : Retire) (k : Nat),
       let n := r.spire.toNat
       w.retires.find? (fun x => x.spire = r.spire && !x.moved) = some r →
         (spareFor w r.action = some k → k < 4 → ∃ u, exec (.spireRetirement t r.spire) s = .next u ∧
           (getTower u t).spFree.getLsbD k = false ∧ bits (getTower u t).spSub.toNat (8 * k + 7) (8 * k) = 128 + n ∧
           (∀ x ∈ (getTower u t).retires, x.spire ≠ r.spire) ∧ (getTower u t).rerouted = w.rerouted ∧
           ∀ c, getCore u (.core t c) = getCore s (.core t c)) ∧
         (spareFor w r.action = none →
           carrierFor { w with rerouted := w.rerouted ||| (1#32 <<< n) } n r.action = some k → ∃ u,
             exec (.spireRetirement t r.spire) s = .next u ∧ (getTower u t).rerouted.getLsbD n = true ∧
             mapGet? (getTower u t).carriers n = some k ∧ (getCore u (.core t (columnCore n 0))).cfm.getLsbD 8 = false ∧
             (getCore u (.core t (columnCore n 1))).cfm.getLsbD 8 = false ∧
             ∀ x ∈ (getTower u t).retires, x.spire = r.spire → x.moved = true)) ∧
     (∀ (r : Retire) (i : Nat) (l : List Nat),
       let c := columnCore r.spire.toNat 1
       let b := getVb s (.core t c) i
       w.retires.find? (fun x => x.spire = r.spire && x.moved) = some r →
         (r.todo = [] → ∃ u, exec (.bufferMigration t r.spire) s = .next u ∧ (∀ x ∈ (getTower u t).retires, x.spire ≠ r.spire) ∧
           u.mem = s.mem) ∧
         (∀ n, r.todo = i :: l → r.stamp = some n → vbOn b = true →
           rangeBusy s n (vbSlotAdr t c b 0) (vbSlots b * vbSize b * 0x4000) = true → exec (.bufferMigration t r.spire) s = .next s) ∧
         (∀ n, r.todo = i :: l → r.stamp = some n → vbOn b = true →
           rangeBusy s n (vbSlotAdr t c b 0) (vbSlots b * vbSize b * 0x4000) = false → ∃ u m,
             exec (.bufferMigration t r.spire) s = .next (modRetire u t r.spire m) ∧ u = (migrateBuffer s t c i).1 ∧
             (m r).todo = l ∧ (m r).stamp = none))) ∧
  (∀ (s : State) (t : BitVec 3),
     let h := (getTower s t).thermal
     (∀ (i : BitVec 2) (x : BitVec 16),
       let h' := { h with reading := setAt h.reading i.toNat x }
       let assisted := (getTower s t).fmr.getLsbD 8
       let warns := reading h i.toNat < warnLimit i.toNat ∧ warnLimit i.toNat ≤ reading h' i.toNat
       let crosses := reading h i.toNat < criticalLimit i.toNat ∧ criticalLimit i.toNat ≤ reading h' i.toNat
       ∃ u, exec (.sensorSample t i x) s = .next u ∧ (getTower u t).thermal.reading = h'.reading ∧
         ((getTower s t).inReset = true → (getTower u t).thermal = h' ∧ (getTower u t).wridx = (getTower s t).wridx) ∧
         ((getTower s t).inReset = false →
           (isCritical h' = true → (getTower u t).thermal.step = 4) ∧
           (warns → (assisted = true ∨ crosses) → ∃ e, (e ∈ (getTower u t).evq ∨ e ∈ (getTower u t).heldTraps) ∧
             evCode e = FCode.thermal.num ∧ evClass e = 5 ∧ e.fadr = x.setWidth 64 ∧ bits e.fsyn.toNat 31 16 = i.toNat) ∧
           (isCritical h' = false → warns →
             (assisted = true → (getTower u t).thermal.step = h.step ∧ (getTower u t).wridx = (getTower s t).wridx + 1) ∧
             (assisted = false → h.step.toNat < 4 → (getTower u t).thermal.step = h.step + 1)) ∧
           (isCritical h' = false → ¬ warns → (getTower u t).thermal.step = h.step ∧ (getTower u t).wridx = (getTower s t).wridx) ∧
           (isHot h' = true → h.warnAt = none → (getTower u t).thermal.warnAt = some (s.pkg.cyc + 3200000)) ∧
           (isHot h' = false → (getTower u t).thermal.warnAt = none))) ∧
     (∀ x, h.warnAt = some x → x.toNat ≤ s.pkg.cyc.toNat → ∃ u, exec (.thermalStepTimer t) s = .next u ∧
       (getTower u t).thermal.step = (if h.step.toNat < 4 then h.step + 1 else h.step) ∧
       (getTower u t).thermal.warnAt = some (x + 3200000)) ∧
     (∀ x, h.coolAt = some x → x.toNat ≤ s.pkg.cyc.toNat → h.step ≠ 0 → ∃ u, exec (.thermalReleaseTimer t) s = .next u ∧
       (getTower u t).thermal.step = h.step - 1 ∧
       (getTower u t).thermal.coolAt = if h.step = 1 then none else some (x + 16000000)) ∧
     (∀ milliwatts, ∃ u, exec (.powerThrottleAdjust t milliwatts) s = .next u ∧ u.mem = s.mem ∧ u.towers = s.towers ∧
       ∀ c : BitVec 6,
         let a := Agent.core t c
         let x := getCore s a
         let y := getCore u a
         y = { x with throttle := y.throttle } ∧
           (x.live = false → powerShare s < milliwatts → x.throttle < 15 → x.throttle < y.throttle ∧ y.throttle ≤ 15) ∧
           (x.live = false → milliwatts ≤ powerShare s → 0 < x.throttle → y.throttle < x.throttle)))

/-! ### Writes of the supervisor core's registers -/

/-- R149, R150, R351, R372 to R375: the answers to a freeze, and the writes that wake, answer and kill tasks; a kill wins over a
resume of the same cycle. A suspend of a task whose save cannot begin yet is noted and taken when it can (log 65). -/
def Obligations.TaskWrites : Prop :=
  ∀ (s : State) (t : BitVec 3),
    (∀ c : BitVec 6,
      let x := getCore s (.core t c)
      (x.frozen = false → exec (.cfsynResume t c) s = .next s ∧ exec (.cfsynSuspend t c) s = .next s) ∧
      (x.frozen = true → x.kill = false → ∃ y : CoreSt, exec (.cfsynResume t c) s = .next (setCore s (.core t c) y) ∧ y.frozen = false ∧
        y.live = x.live ∧ y.task.pc = x.task.pc ∧ y.task.s = x.task.s ∧ y.task.due = x.task.due ∧ y.task.rings = x.task.rings ∧
        bits y.fsyn.toNat 61 61 = 0) ∧
      (x.frozen = true → x.kill = false → saveReady s (.core t c) = false →
        exec (.cfsynSuspend t c) s = .next (setCore s (.core t c) { x with suspend := true })) ∧
      (∀ ps, x.frozen = true → x.kill = false → saveReady s (.core t c) = true → (getTower s t).ready.length < 16384 →
        firstGap 0 (slotsHeld s t x.task.ctx) < 4096 →
        slotPieces s t x.task.ctx (firstGap 0 (slotsHeld s t x.task.ctx)) = some ps → ∃ u k',
          exec (.cfsynSuspend t c) s = .next u ∧ (getCore u (.core t c)).live = false ∧
          mapGet? u.tasks x.task.num.toNat = some k' ∧ k'.pc = x.task.pc ∧ k'.rings = x.task.rings ∧ k'.frozenSave = true)) ∧
    (∀ v : Word,
      let w := getTower s t
      let c := BitVec.ofNat 6 w.tfcore.toNat
      let x := getCore s (.core t c)
      let size := bits v.toNat 61 60
      v.getLsbD 63 = true → size ≠ 3 → bits v.toNat 59 0 = 0 → walkFrozen x = true →
        (v.getLsbD 62 = true → ∃ u, exec (.tfgoFail t v) s = .next u ∧ (getCore u (.core t c)).frozen = true ∧
          bits (getCore u (.core t c)).fsyn.toNat 47 32 = 9 ∧ (getCore u (.core t c)).fadr = x.fadr ∧
          (getCore u (.core t c)).task.pc = x.task.pc) ∧
        (v.getLsbD 62 = false → leafOk s size w.tfleaf.toNat = true → ∃ u, exec (.tfgoFill t v) s = .next u ∧
          (getCore u (.core t c)).frozen = false ∧ (getCore u (.core t c)).task.pc = x.task.pc ∧
          ∃ e ∈ (getCore u (.core t c)).tc, e.ctx = x.task.ctx ∧ e.leaf = w.tfleaf ∧ e.size.toNat = size)) ∧
    (∀ (v : Word) (k : Task), v.toNat < 2 ^ 32 → findTask s (v.setWidth 32) = some k → k.num = v.setWidth 32 → holdsEvent k = true →
      ∃ u k', exec (.sevw t v) s = .next u ∧ findTask u (v.setWidth 32) = some k' ∧ k'.evp = true ∧ u.mem = s.mem) ∧
    (∀ v : Word, v.toNat < 2 ^ 32 → findTask s (v.setWidth 32) = none → exec (.sevw t v) s = .next s) ∧
    (∀ (v : Word) (c : BitVec 6) (r : Nat),
      let x := getCore s (.core t c)
      v.getLsbD 63 = true → bits v.toNat 62 32 = 0 → findPlaced s (v.setWidth 32) = some (.core t c) → x.task.status = .placed →
      x.task.svcReg = some r → x.task.svcVal = none → ∃ u, exec (.svcr t v) s = .next u ∧
        (getCore u (.core t c)).task.svcReg = none ∧
        ∃ d ∈ (getCore u (.core t c)).task.due, d.dst = .scalar r (getTower s t).svcv ∧ d.due = x.task.issued) ∧
    (∀ (v : Word) (c : BitVec 6),
      let x := getCore s (.core t c)
      bits v.toNat 61 44 = 0 → bits v.toNat 63 62 = 1 → findPlaced s (v.setWidth 32) = some (.core t c) →
        ((x.frozen = true ∨ x.task.group = 0 ∨ x.thawed = some s.pkg.cyc) →
          ∃ u, exec (.tkillTask t v) s = .next u ∧ (getCore u (.core t c)).live = false) ∧
        (x.frozen = false → x.task.group ≠ 0 → x.thawed ≠ some s.pkg.cyc →
          exec (.tkillTask t v) s = .next (setCore s (.core t c) { x with kill := true }))) ∧
    (∀ (v : Word), bits v.toNat 61 44 = 0 →
      (bits v.toNat 63 62 = 2 → tasksOf s (some t) (v.extractLsb' 32 12) = [] → exec (.tkillContextTower t v) s = .next s) ∧
      (bits v.toNat 63 62 = 3 → tasksOf s none (v.extractLsb' 32 12) = [] → exec (.tkillContextPackage t v) s = .next s) ∧
      (∀ num, bits v.toNat 63 62 = 2 → tasksOf s (some t) (v.extractLsb' 32 12) = [num] →
        ∃ u, exec (.tkillContextTower t v) s = .next u ∧
          ∀ v' : Word, bits v'.toNat 61 44 = 0 → bits v'.toNat 63 62 = 1 → v'.setWidth 32 = num → exec (.tkillTask t v') s = .next u) ∧
      (∀ num, bits v.toNat 63 62 = 3 → tasksOf s none (v.extractLsb' 32 12) = [num] →
        ∃ u, exec (.tkillContextPackage t v) s = .next u ∧
          ∀ v' : Word, bits v'.toNat 61 44 = 0 → bits v'.toNat 63 62 = 1 → v'.setWidth 32 = num → exec (.tkillTask t v') s = .next u))

/-- R148 to R150, R177 to R179, R187, R195, R348: the writes of CFM, BUD, FRMCFG, TOFS and HCW, and a register write as a step. -/
def Obligations.ConfigurationWrites : Prop :=
  ∀ (s : State) (t : BitVec 3) (v : Word),
    (∀ c : BitVec 6, ∃ u, exec (.cfmWrite t c v) s = .next u ∧ u.mem = s.mem ∧
      let x := getCore s (.core t c)
      let y := getCore u (.core t c)
      y.cfm.getLsbD 0 = x.cfm.getLsbD 0 ∧
        (∀ n, 0 < n → y.cfm.getLsbD n = true → v.getLsbD n = true ∧ x.fused.getLsbD n = false) ∧
        (∀ n, 0 < n → v.getLsbD n = true → x.fused.getLsbD n = false → (cfmReset (coreKey (.core t c))).getLsbD n = true →
          y.cfm.getLsbD n = true) ∧
        (x.live = true → descFeat x.task.desc.toNat &&& y.cfm.toNat ≠ descFeat x.task.desc.toNat → y.preempt = true)) ∧
    (∀ ctx : BitVec 12, ∃ u, exec (.budWrite t ctx v) s = .next u ∧ mapGet 0 (getTower u t).bud ctx.toNat = v ∧ u.mem = s.mem) ∧
    (let fper' := bits v.toNat 63 32
     let tpf' := bits v.toNat 12 0
     let ok := bits v.toNat 31 13 = 0 ∧ 1 ≤ tpf' ∧ tpf' ≤ 4096 ∧ fper' % tpf' = 0 ∧ 1600 ≤ fper' / tpf'
     (ok → exec (.frmcfgWrite v) s = .next { s with pkg := { s.pkg with frmcfg := v } }) ∧
     (¬ ok → exec (.frmcfgWrite v) s = .next s ∧
       ∀ (h : Head) (f : SysF), s.cur = .sup t → f.imm = 7 → scalarIn (curTask s) f.a = v → Ready (.mtsr h f) s →
         exec (.mtsr h f) s = .next (takeFault s s.cur (bundleFault s .illegalOperand 11)))) ∧
    (v = s.pkg.tofs → exec (.tofsWrite v) s = .next s) ∧
    (v ≠ s.pkg.tofs → ∃ u, exec (.tofsWrite v) s = .next u ∧ u.pkg.tofs = v ∧ u.pkg.stepped = true ∧ u.pkg.cyc = s.pkg.cyc) ∧
    (v.toNat % 2 ^ 63 = 0 → (v.getLsbD 63 = true → windowHeld s t = false) →
      ∃ u, exec (.hcwWrite t v) s = .next u ∧ (getTower u t).hcw = v ∧ u.mem = s.mem ∧
        (s.pkg.step ≠ 6 ∨ v.getLsbD 63 = false → u.pkg = s.pkg)) ∧
    (v.getLsbD 63 = true → windowHeld s t = true → exec (.hcwWrite t v) s = .next s) ∧
    (∀ (a : Agent) (n : BitVec 12),
      exec (.registerWrite a n v) s = match writeReg s a n.toNat v with
        | .done s1 => .next s1
        | _ => .next s) ∧
    (∀ n : BitVec 12, (n = 0x68 → exec (.registerWrite (.sup t) n v) s =
      .next (modTower s t (fun w => { w with sup := { w.sup with sepc := v } }))))

/-! ### The host, the links and bring-up -/

/-- R107, R112, R195, R349, R380, R381, R384, R387, R394: the host's writes and reads by BAR, what is refused, the control window with
its lock, which ends step 5 of bring-up, and the training of a link. That a table's word keeps the bits no rule names is the model's
reading (log 77). -/
def Obligations.HostEvents : Prop :=
  ∀ s : State,
    (∀ (bar : BitVec 3) (off : BitVec 21) (bytes : List Byte), s.pkg.pcieUp = true → barSize bar < off.toNat + bytes.length →
      exec (.hostPostedWrite bar off bytes) s = .next { s with pkg := { s.pkg with hostReply := .unsupported } } ∧
      exec (.hostRead bar off bytes.length) s = .next { s with pkg := { s.pkg with hostReply := .unsupported } }) ∧
    (∀ (bar : BitVec 3) (off : BitVec 21), s.pkg.pcieUp = true →
      exec (.hostAtomicRequest bar off) s = .next { s with pkg := { s.pkg with hostReply := .unsupported } }) ∧
    (∀ (off : BitVec 21) (bytes : List Byte),
      let t := BitVec.ofNat 3 (off.toNat / 2 ^ 18)
      let a := poolFlat t (0x17C0000 + off.toNat % 2 ^ 18)
      s.pkg.pcieUp = true → bytes ≠ [] → off.toNat % 2 ^ 18 + bytes.length ≤ 2 ^ 18 →
        (hcwOpen s t = false → exec (.hostPostedWrite 2 off bytes) s = .next s ∧ ∃ l,
          exec (.hostRead 2 off bytes.length) s = .next { s with pkg := { s.pkg with hostReply := .data l } } ∧
          l = List.replicate bytes.length 0) ∧
        (hcwOpen s t = true → pageHeld s a bytes.length = false → Sound s → ∃ u,
          exec (.hostPostedWrite 2 off bytes) s = .next u ∧ SameBytesBut [(a, bytes.length)] s u ∧
          (∀ i, i < bytes.length → readByte u (a + i) = bytes.getD i 0) ∧ u.cores = s.cores) ∧
        (hcwOpen s t = true → ∃ l, exec (.hostRead 2 off bytes.length) s = .next { s with pkg := { s.pkg with hostReply := .data l } } ∧
          l = readBytes s a bytes.length)) ∧
    (∀ (off : BitVec 21) (bytes : List Byte), s.pkg.pcieUp = true → off.toNat + bytes.length ≤ 2 ^ 21 →
      exec (.hostPostedWrite 4 off bytes) s = .next s) ∧
    (∀ (off : BitVec 21) (n : Nat), s.pkg.pcieUp = true → off.toNat + n ≤ 2 ^ 21 → ∃ l,
      exec (.hostRead 4 off n) s = .next { s with pkg := { s.pkg with hostReply := .data l } } ∧ l.length = n ∧
        ∀ i, i < n →
          let o := off.toNat + i
          let byte := fun (x : Nat) => l.getD i 0 = BitVec.ofNat 8 (x / 2 ^ (8 * (o % 8)))
          let e := mapGet ⟨0, 0, 0, 0⟩ (getTower s (BitVec.ofNat 3 (o / 0x2_0000))).log (o % 0x2_0000 / 32)
          let t := BitVec.ofNat 3 ((o - 0x10_0000) / 32)
          let w := getTower s t
          (o < 0x10_0000 → (o % 32 < 8 → byte e.fsyn.toNat) ∧ (8 ≤ o % 32 → o % 32 < 16 → byte e.fadr.toNat) ∧
            (16 ≤ o % 32 → o % 32 < 24 → byte e.fbnd.toNat) ∧ (24 ≤ o % 32 → byte e.fslt.toNat)) ∧
          (0x10_0000 ≤ o → o < 0x10_0100 → o % 32 < 8 →
            byte (w.wridx.toNat + (if w.sup.halted then 2 ^ 63 else 0) +
              (if t = 0 then s.pkg.step * 2 ^ 32 + (if s.pkg.failed then 2 ^ 62 else 0) else 0))) ∧
          (0x10_0000 ≤ o → (0x10_0100 ≤ o ∨ 8 ≤ o % 32) → l.getD i 0 = 0)) ∧
    (∀ (off : BitVec 21) (n : Nat), s.pkg.pcieUp = true → off.toNat + n ≤ 2 ^ 16 → ∃ l,
      exec (.hostRead 0 off n) s = .next { s with pkg := { s.pkg with hostReply := .data l } } ∧ l.length = n ∧
        ∀ i, i < n →
          let o := off.toNat + i
          let x := if o / 8 = 0 ∨ windowTable (o / 8 * 8) = true then windowReg s (o / 8 * 8) else 0
          l.getD i 0 = BitVec.ofNat 8 (x / 2 ^ (8 * (o % 8)))) ∧
    (∀ (off : BitVec 21) (v : Word), s.pkg.pcieUp = true → off.toNat % 8 = 0 → off.toNat < 2 ^ 16 →
      exec (.hostPostedWrite 0 off (leBytes 8 v.toNat)) s =
        if off = 0 then exec (.platctlWrite v) s
        else if off = 8 then exec (.resumeWrite v) s
        else exec (.controlWindowWrite (off.setWidth 16) v) s) ∧
    (∀ v : Word,
      (windowLocked s = true → exec (.platctlWrite v) s = .next s) ∧
      (windowLocked s = false → ∃ u, exec (.platctlWrite v) s = .next u ∧
        windowReg u 0 = (v &&& 0x8000_0000_0000_000F#64).toNat ∧
        u.mem = s.mem ∧ u.towers = s.towers ∧ (v.getLsbD 63 = true → s.pkg.step = 5 → u.pkg.step = 6) ∧
        (v.getLsbD 63 = false → u.pkg.step = s.pkg.step ∧ u.pkg.m2 = s.pkg.m2))) ∧
    (∀ v : Word, ∃ u, exec (.resumeWrite v) s = .next u ∧ u.mem = s.mem ∧ u.cores = s.cores ∧ ∀ t : BitVec 3,
      getTower u t = { getTower s t with sup := { (getTower s t).sup with
        halted := (getTower s t).sup.halted && !v.getLsbD t.toNat } }) ∧
    (∀ (off : BitVec 16) (v : Word),
      ((windowLocked s = true ∨ windowTable off.toNat = false ∨ off.toNat % 8 ≠ 0) → exec (.controlWindowWrite off v) s = .next s) ∧
      (windowLocked s = false → windowTable off.toNat = true → off.toNat % 8 = 0 → ∃ u,
        exec (.controlWindowWrite off v) s = .next u ∧ windowReg u off.toNat = (tableWord off.toNat v).toNat ∧
        (∀ o, o ≠ off.toNat → windowReg u o = windowReg s o) ∧ u.mem = s.mem)) ∧
    (∀ (link : BitVec 4) (trained : Bool) (peer : BitVec 4), s.pkg.links.length = 16 → ∃ u,
      exec (.linkTraining link trained peer) s = .next u ∧ u = { s with pkg := { s.pkg with links := u.pkg.links } } ∧
      ∀ l, u.pkg.links[link.toNat]? = some l → l.peer = peer ∧
        (l.up = true ↔ trained = true ∧ bits (windowReg s (0x1000 + 8 * link.toNat)) 7 7 = 1 ∧
          bits (windowReg s (0x1000 + 8 * link.toNat)) 3 0 = peer.toNat))

/-- R391 to R394: package reset and the steps of bring-up, from the PCIe link to the start of the supervisor cores, and the
attestation report. That memory outside the pools is kept is the model's choice (log 50); that M0 and M1 are digests of the image
bodies and that a rejected image stops bring-up are its readings (log 80), and the outcome of the self-test is free (log 109). -/
def Obligations.PlatformEvents : Prop :=
  ∀ s : State,
    (Sound s → ∃ u, exec .packageReset s = .next u ∧ u.pkg = { PkgSt.reset with svn := s.pkg.svn, resets := s.pkg.resets + 1 } ∧ u.towers = [] ∧ u.tasks = [] ∧
      u.acc = [] ∧ u.jobs = [] ∧ (∀ a, (getCore u a).live = false ∧ (getCore u a).frozen = false ∧
        (getCore u a).fused = (getCore s a).fused ∧ (getCore u a).cfm = cfmReset (coreKey a) &&& ~~~(getCore s a).fused) ∧
      ∀ a, (inPool a = false → cellGet u.mem a = cellGet s.mem a) ∧ (inPool a = true → cellGet u.mem a = unlisted a)) ∧
    (s.pkg.step = 1 → s.pkg.failed = false →
      exec .pcieLinkTrain s = .next { s with pkg := { s.pkg with pcieUp := true, step := 2 } }) ∧
    (∀ f p : Image, s.pkg.step = 2 → s.pkg.failed = false →
      (Config.selfTest s.pkg.resets = true → imageAccepted s f = true → imageAccepted s p = true → ∃ u,
        exec (.aknelVerify f p) s = .next u ∧ u.pkg.step = 3 ∧
        u.pkg.firmware = f.body ∧ u.pkg.platform = p.body ∧ u.pkg.m0 = digest f.body ∧ u.pkg.m1 = digest p.body ∧
        u.pkg.newSvn.toNat = max s.pkg.svn.toNat (max f.svn.toNat p.svn.toNat) ∧ u.pkg.svn = s.pkg.svn ∧ u.mem = s.mem) ∧
      ((Config.selfTest s.pkg.resets = false ∨ imageAccepted s f = false ∨ imageAccepted s p = false) →
        exec (.aknelVerify f p) s = .next { s with pkg := { s.pkg with failed := true } }) ∧
      (imageAccepted s f = true → f.key.length = 1952 ∧ f.signature.length = 3309 ∧ digest f.key = Config.vendorDigest ∧
        Config.mldsaVerify f.key f.body f.signature = true ∧ s.pkg.svn.toNat ≤ f.svn.toNat)) ∧
    (∀ t : BitVec 3, s.pkg.step = 3 → s.pkg.failed = false → s.pkg.trained.getLsbD t.toNat = false → (getTower s t).lostSpires = 0 →
      ∃ u, exec (.dramSpireTraining t 0) s = .next u ∧ (getTower u t).inReset = false ∧ u.pkg.trained.getLsbD t.toNat = true ∧
        (u.pkg.step = 4 ↔ ∀ k : BitVec 3, k ≠ t → s.pkg.trained.getLsbD k.toNat = true)) ∧
    (∀ (adr : BitVec 36) (entry : Word), s.pkg.step = 4 → s.pkg.failed = false → ∃ u, exec (.malaskunStart adr entry) s = .next u ∧
      u.pkg.step = (if windowLocked s then 6 else 5) ∧ ∀ t : BitVec 3,
        ((getTower s t).inReset = false → (getTower u t).sup.inReset = false ∧ (getTower u t).sup.sstat.getLsbD 0 = false ∧
          (getCore u (.sup t)).task.pc = entry) ∧
        ((getTower s t).inReset = true → (getTower u t).sup.inReset = (getTower s t).sup.inReset)) ∧
    (∀ nonce : List Byte,
      ((nonce.length ≠ 32 ∨ (1 ≤ s.pkg.step ∧ s.pkg.step < 5)) → exec (.attestationRequest nonce) s = .next s) ∧
      (nonce.length = 32 → (s.pkg.step = 0 ∨ 5 ≤ s.pkg.step) → ∃ body : List Byte,
        exec (.attestationRequest nonce) s = .next { s with
          pkg := { s.pkg with report := body ++ leBytes 3309 (Config.mldsaSign s.free identitySeed body).toNat }, free := s.free + 1 } ∧
        body.take 8 = [0x41, 0x4E, 0x4B, 0x38, 0x41, 0x54, 0x52, 0x54] ∧ body.length = 0x838 ∧
        body.drop 0x7B0 = leBytes 32 s.pkg.m0.toNat ++ leBytes 32 s.pkg.m1.toNat ++ leBytes 32 s.pkg.m2.toNat ++ nonce ++
          leBytes 8 s.pkg.cyc.toNat))

/-! ### Steps, decoding and the state at reset -/

/-- R33, R145, R148, R217, R222, R237: the empty bundle issues; a step whose bundle holds one acting syllable is `exec` of the
instruction that the decoder reads from it, and then the bundle's end; a syllable that takes a fault leaves only that (`faultAt`), and
one that waits, or faults, leaves the results that were due unwritten (`unissued`). The pc behind a bundle that ends the address space
is the model's choice (log 17), and so is the bundle that meets bank conflicts (`bundleSlow`, log 104). -/
def Obligations.StepRunsInstruction : Prop :=
  (∀ (s : State) (stop : Bool) (t : BitVec 3) (c : BitVec 6),
    let k := curTask s
    s.cur = .core t c → k.group < 64 → k.pend = none → k.skip = none → k.agu.run = false → dueOver k = false →
    (∀ l ∈ k.loops, ¬ (l.active = true ∧ l.stop = k.pc)) → (getCore s s.cur).kill = false →
      ∃ u, exec (.nop stop) s = .next u ∧ u.mem = s.mem ∧ u.pkg = s.pkg ∧
        (curTask u).pc = (if k.pc.toNat + 4 < 2 ^ 64 then k.pc + 4 else 0x8000_0000_0000_0000) ∧
        (curTask u).issued = k.issued + 1 ∧ (curTask u).group = (if stop then 0 else k.group + 1) ∧
        (curTask u).s = k.s ∧ (curTask u).v = k.v ∧ (curTask u).c = k.c ∧ (curTask u).loops = k.loops ∧ (curTask u).due = k.due ∧
        (curTask u).tbud = (if k.counted then k.tbud - 1 else k.tbud) ∧
        mapGet 0 (getTower u t).bud k.ctx.toNat = mapGet 0 (getTower s t).bud k.ctx.toNat - 1) ∧
  (∀ (s : State) (a : Agent) (l : List Move) (bs : List Byte) (s1 : State) (b : Bundle) (n : Nat) (w : Word) (i : Instr),
    let s0 := modTask { s with moves := l, cur := a } commitDue
    let k0 := curTask { s with moves := l, cur := a }
    let k := curTask s1
    let j := selectForm k i
    s.inputs = [] → s.moves = .bundleIssue a :: l → issueOpen { s with moves := l } a = true → k0.lostStore = none →
    fetchBundle s0 a (curTask s0).pc = (.ok bs, s1) → splitIssue s1 bs = .ok b → b.syls = [(n, w)] →
    decodeSyllable n w = some i → i.slot = some n → j.slot = some n → predicateHolds k (Head.ofWord w) = true →
    decodeFault (some b.stop) s1 i = none → operandHold s1 i = none → Ready j s1 →
    isTend i = false → isArun i = false → k.agu.run = false →
      exec j s1 = .next (settle s1 (runSyllable j s1)) ∧
      (∀ t, runSyllable j s1 = .done t → dueOver (curTask t) = false → step s = .next (finishBundle b 12 k.pc k.pend false t)) ∧
      (∀ f, runSyllable j s1 = .trap f → step s = .next (faultAt k0 s1 f)) ∧
      (runSyllable j s1 = .stall → step s = .next (unissued k0 [i] s1)) ∧
      (runSyllable j s1 = .wait .results → step s = .next (markWait (unissued k0 [i] s1) .results)) ∧
      (∀ x, x ≠ .results → runSyllable j s1 = .wait x → step s = .next (unissued k0 [i] (markWait s1 x)))) ∧
  (∀ (s : State) (a : Agent) (l : List Move), s.inputs = [] → s.moves = .bundleSlow a :: l →
    ∀ u, exec (.bundleIssue a) { s with moves := l, slow := true } = .next u → step s = .next { u with slow := false }) ∧
  (∀ (s : State) (a : Agent) (l : List Move), s.inputs = [] → s.moves = .bundleIssue a :: l →
    step s = exec (.bundleIssue a) { s with moves := l } ∧
      (issueOpen { s with moves := l } a = false → step s = .next { s with moves := l })) ∧
  (∀ (s : State) (i : Instr) (l : List Instr), s.inputs = i :: l → step s = exec i { s with inputs := l }) ∧
  (∀ s : State, s.inputs = [] → s.moves = [] → ∃ u, step s = .next u ∧ u.pkg.cyc = s.pkg.cyc + 1 ∧ u.mem = s.mem ∧
    u.cores = s.cores ∧ u.towers = s.towers ∧ u.tasks = s.tasks)

/-- R216 to R220, R224, R228: decode and encode agree: a syllable's word decodes to the instruction it encodes, and every word
that decodes is the encoding of what it decodes to; so for the bundle around them. -/
def Obligations.DecodeEncode : Prop :=
  (∀ (i : Instr) (n : Nat) (w : Word), i.wf = true → encode i = some (n, w) → decodeSyllable n w = some i.form) ∧
  (∀ (i : Instr) (n : Nat) (w : Word), decodeSyllable n w = some i → encode i = some (n, w)) ∧
  (∀ (b : Bundle) (rest : List Byte), (b.syls.map Prod.fst).Pairwise (fun x y => x < y) → (∀ x ∈ b.syls, x.1 < 12) →
    (b.drain = true → b.syls.any isXfer = true) → splitBundle (encodeBundle b ++ rest) = .ok (b, rest))

/-- Memory keeps its canonical form in every step, from every state. -/
def Obligations.MemoryStaysCanonical : Prop :=
  ∀ s t : State, Sound s → step s = .next t → Sound t

/-- R25, R114, R116, R124, R150, R177 to R179, R394: what reset leaves. That unlisted memory reads zero is the model's choice
(log 1). -/
def Obligations.ResetState : Prop :=
  Sound State.reset ∧ State.reset.pkg.cyc = 0 ∧ State.reset.pkg.tofs = 0 ∧ State.reset.pkg.trate = 0 ∧
  State.reset.pkg.frame = 0 ∧ State.reset.pkg.frmcfg = 0x0018_6A00_0000_0010 ∧ State.reset.pkg.step = 1 ∧
  (∀ a, (getCore State.reset a).live = false ∧ (getCore State.reset a).frozen = false ∧ (getCore State.reset a).fsyn = 0) ∧
  (∀ t, (getTower State.reset t).evq = [] ∧ (getTower State.reset t).fmr = 0 ∧ (getTower State.reset t).spFree = 0xF ∧
    (getTower State.reset t).sup.inReset = true ∧ (getTower State.reset t).sup.sstat = 0 ∧ (getTower State.reset t).hcw = 0) ∧
  ∀ a, cellGet State.reset.mem a = unlisted a

/-- R222 to R224, R217: words of the spec's own examples decode to the instructions they stand for (chapters 11 to 14). -/
def Obligations.DecodedWords : Prop :=
  decodeSyllable 1 0x0100_1020_1000_0000 = some (.add .sca ⟨0, 0, 0⟩ ⟨4, 4, 1, 0, 0, 0⟩) ∧
  decodeSyllable 4 0x0100_0600_3014_0090 = some (.vadd ⟨0, 0, 0⟩ ⟨12, 0, 3, 5, 0, 9, 0⟩) ∧
  decodeSyllable 7 0x0101_8488_0000_0003 = some (.ld ⟨0, 0, 0⟩ ⟨0x309, 2, 0, 0, 0, 0, 3⟩) ∧
  decodeSyllable 0 0x0100_4000_0000_0400 = some (.pbr ⟨0, 0, 0⟩ ⟨1, 0, 0, 0x400⟩) ∧
  decodeSyllable 0 0x0400_57E0_0000_0000 = some (.xferl ⟨0, 0, 0⟩ ⟨1, 1, 63, 0⟩) ∧
  decodeSyllable 0 0x0200_01F8_0000_0002 = some (.pbrr ⟨0, 0, 0⟩ ⟨0, 63, 0, 0, 0, 2⟩) ∧
  decodeSyllable 0 0x0300_8000_0000_0000 = some (.xfer ⟨0, 0, 0⟩ ⟨2, 0, 0, 0⟩) ∧
  decodeSyllable 0 0x0900_0000_5000_0008 = some (.loopi ⟨0, 0, 0⟩ ⟨0, 0, 5, 0, 0, 8⟩) ∧
  decodeSyllable 1 0x0300_50A0_0000_0001 = some (.addi .sca ⟨0, 0, 0⟩ ⟨20, 20, 1⟩) ∧
  decodeSyllable 2 0x3800_2C00_0000_0001 = some (.li .scb ⟨0, 0, 0⟩ ⟨11, 1⟩) ∧
  decodeSyllable 9 0x0400_1414_61CA_0040 = some (.wvld ⟨0, 0, 0⟩ ⟨40, 5, 3, 7, 0, 5, 64⟩) ∧
  decodeSyllable 10 0x0100_50A9_62E6_0001 = some (.cpy ⟨0, 0, 0⟩ ⟨20, 21, 22, 23, 24, 1⟩) ∧
  decodeSyllable 6 0x0400_0140_0000_0000 = some (.mpush ⟨0, 0, 0⟩ ⟨0, 20, 0, 0, 0, 0⟩) ∧
  decodeSyllable 6 0x0800_01E0_0000_00A0 = some (.mdrn ⟨0, 0, 0⟩ ⟨0, 30, 0, 0, 10, 0⟩) ∧
  decodeTableWord 32 0x4_0000 = some (.nop true) ∧ decodeTableWord 32 0 = some (.nop false)
end

