-- ==== Sys2Proof/Laws/Maps.lean ====
section
/-!
SUPPORT. Laws of the maps and of the list of memory cells: what a read gives after a write, and that every change of memory
keeps its canonical form.
-/
namespace Sys2Proof.Machine

/-! ### Maps -/

theorem mapGet?_mapPut_self {α : Type} (m : FMap α) (k : Nat) (y : α) : mapGet? (mapPut m k y) k = some y := by
  induction m with
  | nil => simp [mapPut, mapGet?]
  | cons p m ih =>
    obtain ⟨i, x⟩ := p
    simp only [mapPut]
    split
    · simp [mapGet?]
    · split
      · simp [mapGet?]
      · simp only [mapGet?]
        rw [if_neg (by omega), if_neg (by omega), ih]

theorem mapGet?_mapPut_ne {α : Type} (m : FMap α) (k k' : Nat) (y : α) (h : k' ≠ k) :
    mapGet? (mapPut m k y) k' = mapGet? m k' := by
  induction m with
  | nil => simp only [mapPut, mapGet?]; rw [if_neg (by omega)]; split <;> rfl
  | cons p m ih =>
    obtain ⟨i, x⟩ := p
    simp only [mapPut]
    split
    · simp only [mapGet?]
      rw [if_neg (by omega)]
      split
      · rw [if_neg (by omega), if_pos (by omega)]
      · rfl
    · split
      · subst_vars; simp only [mapGet?, if_neg (Ne.symm h)]
      · simp only [mapGet?, ih]

@[simp] theorem mapGet_mapPut_self {α : Type} (d : α) (m : FMap α) (k : Nat) (y : α) : mapGet d (mapPut m k y) k = y := by
  simp [mapGet, mapGet?_mapPut_self]

theorem mapGet_mapPut_ne {α : Type} (d : α) (m : FMap α) (k k' : Nat) (y : α) (h : k' ≠ k) :
    mapGet d (mapPut m k y) k' = mapGet d m k' := by
  simp [mapGet, mapGet?_mapPut_ne m k k' y h]

@[simp] theorem setAt_length {α : Type} (l : List α) (n : Nat) (y : α) : (setAt l n y).length = l.length := by
  induction l generalizing n with
  | nil => rfl
  | cons x l ih => cases n <;> simp [setAt, ih]

theorem setAt_getD {α : Type} (d : α) (l : List α) (n m : Nat) (y : α) :
    (setAt l n y).getD m d = if m = n ∧ n < l.length then y else l.getD m d := by
  induction l generalizing n m with
  | nil => simp [setAt]
  | cons x l ih =>
    cases n with
    | zero => cases m <;> simp [setAt]
    | succ n =>
      cases m with
      | zero => simp [setAt]
      | succ m => simpa [setAt] using ih n m

/-! ### Cells -/

/-- A weaker bound serves as well. -/
theorem memWfFrom_le {b b' : Nat} {m : List Host.Cell} (h : b' ≤ b) (w : memWfFrom b m = true) : memWfFrom b' m = true := by
  cases m with
  | nil => rfl
  | cons c m => simp only [memWfFrom, Bool.and_eq_true, decide_eq_true_eq] at w ⊢; exact ⟨⟨by omega, w.1.2⟩, w.2⟩

theorem memWfFrom_cellCons {b k : Nat} {y : Byte} {m : List Host.Cell} (h : b ≤ k) (w : memWfFrom (k + 1) m = true) :
    memWfFrom b (cellCons k y m) = true := by
  unfold cellCons
  split
  · exact memWfFrom_le (by omega) w
  · simp [memWfFrom, *]

theorem memWfFrom_cellSet {b k : Nat} {y : Byte} {m : List Host.Cell} (h : b ≤ k) (w : memWfFrom b m = true) :
    memWfFrom b (cellSet m k y) = true := by
  induction m generalizing b with
  | nil => exact memWfFrom_cellCons h rfl
  | cons c m ih =>
    obtain ⟨i, x⟩ := c
    have v := w
    simp only [memWfFrom, Bool.and_eq_true, decide_eq_true_eq] at v
    simp only [cellSet]
    split
    · exact memWfFrom_cellCons h (by simp [memWfFrom, v, show k + 1 ≤ i by omega])
    · split
      · subst_vars; exact memWfFrom_cellCons h v.2
      · simp only [memWfFrom, Bool.and_eq_true, decide_eq_true_eq]
        exact ⟨v.1, ih (by omega) v.2⟩

theorem memWfFrom_filter {b : Nat} {m : List Host.Cell} (p : Host.Cell → Bool) (w : memWfFrom b m = true) :
    memWfFrom b (m.filter p) = true := by
  induction m generalizing b with
  | nil => rfl
  | cons c m ih =>
    obtain ⟨i, x⟩ := c
    simp only [memWfFrom, Bool.and_eq_true, decide_eq_true_eq] at w
    simp only [List.filter]
    split
    · simp [memWfFrom, w, ih w.2]
    · exact memWfFrom_le (by omega) (ih w.2)

/-- Writing a byte keeps the canonical form. -/
theorem memory_wf_cellSet {m : List Host.Cell} (k : Nat) (y : Byte) (w : Memory.wf m = true) : Memory.wf (cellSet m k y) = true :=
  memWfFrom_cellSet (Nat.zero_le _) w

/-- Dropping cells keeps the canonical form. -/
theorem memory_wf_filter {m : List Host.Cell} (p : Host.Cell → Bool) (w : Memory.wf m = true) : Memory.wf (m.filter p) = true :=
  memWfFrom_filter p w

/-- Clearing a range keeps the canonical form. -/
theorem memory_wf_cellsClear {m : List Host.Cell} (a n : Nat) (w : Memory.wf m = true) : Memory.wf (cellsClear m a n) = true :=
  memWfFrom_filter _ w

/-- Writing bytes keeps the canonical form. -/
theorem memory_wf_cellsWrite {m : List Host.Cell} (a : Nat) (l : List Byte) (w : Memory.wf m = true) :
    Memory.wf (cellsWrite m a l) = true := by
  induction l generalizing m a with
  | nil => exact w
  | cons x l ih => exact ih (a + 1) (memory_wf_cellSet a x w)

/-- Below the bound of a canonical list nothing is listed. -/
theorem cellGet_below {b k : Nat} {m : List Host.Cell} (h : k < b) (w : memWfFrom b m = true) : cellGet m k = unlisted k := by
  cases m with
  | nil => rfl
  | cons c m =>
    simp only [memWfFrom, Bool.and_eq_true, decide_eq_true_eq] at w
    simp only [cellGet]
    rw [if_neg (by omega), if_pos (by omega)]

theorem cellGet_cellCons {k k' : Nat} {y : Byte} {m : List Host.Cell} (w : memWfFrom (k + 1) m = true) :
    cellGet (cellCons k y m) k' = if k' = k then y else cellGet m k' := by
  unfold cellCons
  split
  · split
    · subst_vars; exact cellGet_below (Nat.lt_succ_self _) w
    · rfl
  · simp only [cellGet]
    by_cases e : k' = k
    · rw [if_pos e.symm, if_pos e]
    · rw [if_neg (Ne.symm e), if_neg e]
      split
      · exact (cellGet_below (by omega) w).symm
      · rfl

/-- Read after write, for every address. -/
theorem cellGet_cellSet {b k k' : Nat} {y : Byte} {m : List Host.Cell} (w : memWfFrom b m = true) :
    cellGet (cellSet m k y) k' = if k' = k then y else cellGet m k' := by
  induction m generalizing b with
  | nil => exact cellGet_cellCons rfl
  | cons c m ih =>
    obtain ⟨i, x⟩ := c
    have v := w
    simp only [memWfFrom, Bool.and_eq_true, decide_eq_true_eq] at v
    simp only [cellSet]
    split
    · exact cellGet_cellCons (by simp [memWfFrom, v, show k + 1 ≤ i by omega])
    · split
      · subst_vars
        rw [cellGet_cellCons v.2]
        split
        · rfl
        · simp only [cellGet]
          rw [if_neg (by omega)]
          split
          · exact cellGet_below (by omega) v.2
          · rfl
      · simp only [cellGet, ih v.2]
        split
        · rw [if_neg (by omega)]
        · split
          · rw [if_neg (by omega)]
          · rfl

/-- Read after a clearing, for every address. -/
theorem cellGet_filter {b k : Nat} {m : List Host.Cell} (p : Nat → Bool) (w : memWfFrom b m = true) :
    cellGet (m.filter (fun c => p c.1)) k = if p k = true then cellGet m k else unlisted k := by
  induction m generalizing b with
  | nil => simp [cellGet]
  | cons c m ih =>
    obtain ⟨i, x⟩ := c
    simp only [memWfFrom, Bool.and_eq_true, decide_eq_true_eq] at w
    have hb : memWfFrom (i + 1) (m.filter (fun c => p c.1)) = true := memWfFrom_filter _ w.2
    simp only [List.filter]
    cases hp : p i
    · simp only [cellGet]
      rw [ih w.2]
      split
      · rw [if_neg (by intro h; subst h; simp_all)]
        split
        · exact cellGet_below (by omega) w.2
        · rfl
      · rfl
    · simp only [cellGet]
      split
      · subst_vars; simp [hp]
      · split
        · split <;> rfl
        · exact ih w.2

end Sys2Proof.Machine
end

