-- ==== Sys2Proof/Laws/State.lean ====
section
/-!
SUPPORT. Laws of the state record: what each named update leaves, field by field, and reading a core, a tower or the acting task
after an update.
-/
namespace Sys2Proof.Machine

/-! ### Keys of agents -/

theorem coreKey_inj {a b : Agent} (h : coreKey a = coreKey b) : a = b := by
  cases a <;> cases b <;> simp only [coreKey] at h
  · congr 1 <;> apply BitVec.eq_of_toNat_eq <;> omega
  · omega
  · omega
  · congr 1; apply BitVec.eq_of_toNat_eq; omega

/-! ### Reading after an update -/

@[simp] theorem getCore_setCore_self (s : State) (a : Agent) (x : CoreSt) : getCore (setCore s a x) a = x := by
  simp [getCore, setCore]

theorem getCore_setCore_ne (s : State) (a b : Agent) (x : CoreSt) (h : b ≠ a) : getCore (setCore s a x) b = getCore s b := by
  simp only [getCore, setCore]
  exact mapGet_mapPut_ne _ _ _ _ _ (fun e => h (coreKey_inj e))

@[simp] theorem getTower_setTower_self (s : State) (t : BitVec 3) (x : TowerSt) : getTower (setTower s t x) t = x := by
  simp [getTower, setTower]

theorem getTower_setTower_ne (s : State) (t u : BitVec 3) (x : TowerSt) (h : u ≠ t) :
    getTower (setTower s t x) u = getTower s u := by
  simp only [getTower, setTower]
  exact mapGet_mapPut_ne _ _ _ _ _ (fun e => h (BitVec.eq_of_toNat_eq e))

@[simp] theorem getTower_setCore (s : State) (a : Agent) (x : CoreSt) (t : BitVec 3) :
    getTower (setCore s a x) t = getTower s t := rfl

@[simp] theorem getCore_setTower (s : State) (t : BitVec 3) (x : TowerSt) (a : Agent) :
    getCore (setTower s t x) a = getCore s a := rfl

@[simp] theorem getCore_modCore_self (s : State) (a : Agent) (f : CoreSt → CoreSt) :
    getCore (modCore s a f) a = f (getCore s a) := by simp [modCore]

theorem getCore_modCore_ne (s : State) (a b : Agent) (f : CoreSt → CoreSt) (h : b ≠ a) :
    getCore (modCore s a f) b = getCore s b := getCore_setCore_ne _ _ _ _ h

@[simp] theorem getTower_modTower_self (s : State) (t : BitVec 3) (f : TowerSt → TowerSt) :
    getTower (modTower s t f) t = f (getTower s t) := by simp [modTower]

theorem getTower_modTower_ne (s : State) (t u : BitVec 3) (f : TowerSt → TowerSt) (h : u ≠ t) :
    getTower (modTower s t f) u = getTower s u := getTower_setTower_ne _ _ _ _ h

@[simp] theorem getTower_modCore (s : State) (a : Agent) (f : CoreSt → CoreSt) (t : BitVec 3) :
    getTower (modCore s a f) t = getTower s t := rfl

@[simp] theorem getCore_modTower (s : State) (t : BitVec 3) (f : TowerSt → TowerSt) (a : Agent) :
    getCore (modTower s t f) a = getCore s a := rfl

@[simp] theorem getTower_modTask (s : State) (f : Task → Task) (t : BitVec 3) :
    getTower (modTask s f) t = getTower s t := rfl

@[simp] theorem getCore_modTask_cur (s : State) (f : Task → Task) :
    getCore (modTask s f) s.cur = { getCore s s.cur with task := f (curTask s) } := by
  simp [modTask, curTask]

theorem getCore_modTask_ne (s : State) (f : Task → Task) (a : Agent) (h : a ≠ s.cur) :
    getCore (modTask s f) a = getCore s a := getCore_modCore_ne _ _ _ _ h

@[simp] theorem curTask_modTask (s : State) (f : Task → Task) : curTask (modTask s f) = f (curTask s) := by
  show (getCore (modTask s f) s.cur).task = _
  rw [getCore_modTask_cur]

@[simp] theorem curTask_setTower (s : State) (t : BitVec 3) (x : TowerSt) : curTask (setTower s t x) = curTask s := rfl

@[simp] theorem curTask_modTower (s : State) (t : BitVec 3) (f : TowerSt → TowerSt) : curTask (modTower s t f) = curTask s := rfl

theorem modTask_modTask (s : State) (f g : Task → Task) : modTask (modTask s f) g = modTask s (fun k => g (f k)) := by
  have put : ∀ (m : FMap CoreSt) (k : Nat) (x y : CoreSt), mapPut (mapPut m k x) k y = mapPut m k y := by
    intro m k x y
    induction m with
    | nil => simp [mapPut]
    | cons p m ih =>
      obtain ⟨i, z⟩ := p
      simp only [mapPut]
      split
      · simp [mapPut]
      · split
        · simp [mapPut]
        · simp only [mapPut]; rw [if_neg (by omega), if_neg (by omega), ih]
  simp only [modTask, modCore, setCore, getCore, mapGet_mapPut_self, put]

/-- A result on its way is in the acting task's list of them, and nothing else changes. -/
@[simp] theorem curTask_pushDue (s : State) (lat slot : Nat) (d : Dest) (ring : Option Ring) (fl : BitVec 3) (bad : Option Word) :
    curTask (pushDue s lat slot d ring fl bad) =
      { curTask s with due := (curTask s).due ++ [mkDue (curTask s) lat slot d ring fl bad] } := by
  simp [pushDue]

/-! ### What `setCore` leaves -/

@[simp] theorem setCore_mem (s : State) (a : Agent) (x : CoreSt) : (setCore s a x).mem = s.mem := rfl
@[simp] theorem setCore_zero (s : State) (a : Agent) (x : CoreSt) : (setCore s a x).zero = s.zero := rfl
@[simp] theorem setCore_owner (s : State) (a : Agent) (x : CoreSt) : (setCore s a x).owner = s.owner := rfl
@[simp] theorem setCore_towers (s : State) (a : Agent) (x : CoreSt) : (setCore s a x).towers = s.towers := rfl
@[simp] theorem setCore_pkg (s : State) (a : Agent) (x : CoreSt) : (setCore s a x).pkg = s.pkg := rfl
@[simp] theorem setCore_tasks (s : State) (a : Agent) (x : CoreSt) : (setCore s a x).tasks = s.tasks := rfl
@[simp] theorem setCore_gangs (s : State) (a : Agent) (x : CoreSt) : (setCore s a x).gangs = s.gangs := rfl
@[simp] theorem setCore_acc (s : State) (a : Agent) (x : CoreSt) : (setCore s a x).acc = s.acc := rfl
@[simp] theorem setCore_jobs (s : State) (a : Agent) (x : CoreSt) : (setCore s a x).jobs = s.jobs := rfl
@[simp] theorem setCore_seals (s : State) (a : Agent) (x : CoreSt) : (setCore s a x).seals = s.seals := rfl
@[simp] theorem setCore_buses (s : State) (a : Agent) (x : CoreSt) : (setCore s a x).buses = s.buses := rfl
@[simp] theorem setCore_blocks (s : State) (a : Agent) (x : CoreSt) : (setCore s a x).blocks = s.blocks := rfl
@[simp] theorem setCore_pages (s : State) (a : Agent) (x : CoreSt) : (setCore s a x).pages = s.pages := rfl
@[simp] theorem setCore_freeing (s : State) (a : Agent) (x : CoreSt) : (setCore s a x).freeing = s.freeing := rfl
@[simp] theorem setCore_images (s : State) (a : Agent) (x : CoreSt) : (setCore s a x).images = s.images := rfl
@[simp] theorem setCore_binds (s : State) (a : Agent) (x : CoreSt) : (setCore s a x).binds = s.binds := rfl
@[simp] theorem setCore_pageIns (s : State) (a : Agent) (x : CoreSt) : (setCore s a x).pageIns = s.pageIns := rfl
@[simp] theorem setCore_evicts (s : State) (a : Agent) (x : CoreSt) : (setCore s a x).evicts = s.evicts := rfl
@[simp] theorem setCore_evWait (s : State) (a : Agent) (x : CoreSt) : (setCore s a x).evWait = s.evWait := rfl
@[simp] theorem setCore_merged (s : State) (a : Agent) (x : CoreSt) : (setCore s a x).merged = s.merged := rfl
@[simp] theorem setCore_bad (s : State) (a : Agent) (x : CoreSt) : (setCore s a x).bad = s.bad := rfl
@[simp] theorem setCore_walks (s : State) (a : Agent) (x : CoreSt) : (setCore s a x).walks = s.walks := rfl
@[simp] theorem setCore_corr (s : State) (a : Agent) (x : CoreSt) : (setCore s a x).corr = s.corr := rfl
@[simp] theorem setCore_cur (s : State) (a : Agent) (x : CoreSt) : (setCore s a x).cur = s.cur := rfl
@[simp] theorem setCore_moves (s : State) (a : Agent) (x : CoreSt) : (setCore s a x).moves = s.moves := rfl
@[simp] theorem setCore_inputs (s : State) (a : Agent) (x : CoreSt) : (setCore s a x).inputs = s.inputs := rfl
@[simp] theorem setCore_free (s : State) (a : Agent) (x : CoreSt) : (setCore s a x).free = s.free := rfl
@[simp] theorem setCore_nextId (s : State) (a : Agent) (x : CoreSt) : (setCore s a x).nextId = s.nextId := rfl
@[simp] theorem setCore_slow (s : State) (a : Agent) (x : CoreSt) : (setCore s a x).slow = s.slow := rfl

/-! ### What `setTower` leaves -/

@[simp] theorem setTower_mem (s : State) (t : BitVec 3) (x : TowerSt) : (setTower s t x).mem = s.mem := rfl
@[simp] theorem setTower_zero (s : State) (t : BitVec 3) (x : TowerSt) : (setTower s t x).zero = s.zero := rfl
@[simp] theorem setTower_owner (s : State) (t : BitVec 3) (x : TowerSt) : (setTower s t x).owner = s.owner := rfl
@[simp] theorem setTower_cores (s : State) (t : BitVec 3) (x : TowerSt) : (setTower s t x).cores = s.cores := rfl
@[simp] theorem setTower_pkg (s : State) (t : BitVec 3) (x : TowerSt) : (setTower s t x).pkg = s.pkg := rfl
@[simp] theorem setTower_tasks (s : State) (t : BitVec 3) (x : TowerSt) : (setTower s t x).tasks = s.tasks := rfl
@[simp] theorem setTower_gangs (s : State) (t : BitVec 3) (x : TowerSt) : (setTower s t x).gangs = s.gangs := rfl
@[simp] theorem setTower_acc (s : State) (t : BitVec 3) (x : TowerSt) : (setTower s t x).acc = s.acc := rfl
@[simp] theorem setTower_jobs (s : State) (t : BitVec 3) (x : TowerSt) : (setTower s t x).jobs = s.jobs := rfl
@[simp] theorem setTower_seals (s : State) (t : BitVec 3) (x : TowerSt) : (setTower s t x).seals = s.seals := rfl
@[simp] theorem setTower_buses (s : State) (t : BitVec 3) (x : TowerSt) : (setTower s t x).buses = s.buses := rfl
@[simp] theorem setTower_blocks (s : State) (t : BitVec 3) (x : TowerSt) : (setTower s t x).blocks = s.blocks := rfl
@[simp] theorem setTower_pages (s : State) (t : BitVec 3) (x : TowerSt) : (setTower s t x).pages = s.pages := rfl
@[simp] theorem setTower_freeing (s : State) (t : BitVec 3) (x : TowerSt) : (setTower s t x).freeing = s.freeing := rfl
@[simp] theorem setTower_images (s : State) (t : BitVec 3) (x : TowerSt) : (setTower s t x).images = s.images := rfl
@[simp] theorem setTower_binds (s : State) (t : BitVec 3) (x : TowerSt) : (setTower s t x).binds = s.binds := rfl
@[simp] theorem setTower_pageIns (s : State) (t : BitVec 3) (x : TowerSt) : (setTower s t x).pageIns = s.pageIns := rfl
@[simp] theorem setTower_evicts (s : State) (t : BitVec 3) (x : TowerSt) : (setTower s t x).evicts = s.evicts := rfl
@[simp] theorem setTower_evWait (s : State) (t : BitVec 3) (x : TowerSt) : (setTower s t x).evWait = s.evWait := rfl
@[simp] theorem setTower_merged (s : State) (t : BitVec 3) (x : TowerSt) : (setTower s t x).merged = s.merged := rfl
@[simp] theorem setTower_bad (s : State) (t : BitVec 3) (x : TowerSt) : (setTower s t x).bad = s.bad := rfl
@[simp] theorem setTower_walks (s : State) (t : BitVec 3) (x : TowerSt) : (setTower s t x).walks = s.walks := rfl
@[simp] theorem setTower_corr (s : State) (t : BitVec 3) (x : TowerSt) : (setTower s t x).corr = s.corr := rfl
@[simp] theorem setTower_cur (s : State) (t : BitVec 3) (x : TowerSt) : (setTower s t x).cur = s.cur := rfl
@[simp] theorem setTower_moves (s : State) (t : BitVec 3) (x : TowerSt) : (setTower s t x).moves = s.moves := rfl
@[simp] theorem setTower_inputs (s : State) (t : BitVec 3) (x : TowerSt) : (setTower s t x).inputs = s.inputs := rfl
@[simp] theorem setTower_free (s : State) (t : BitVec 3) (x : TowerSt) : (setTower s t x).free = s.free := rfl
@[simp] theorem setTower_nextId (s : State) (t : BitVec 3) (x : TowerSt) : (setTower s t x).nextId = s.nextId := rfl
@[simp] theorem setTower_slow (s : State) (t : BitVec 3) (x : TowerSt) : (setTower s t x).slow = s.slow := rfl

/-! ### What `modCore` leaves -/

@[simp] theorem modCore_mem (s : State) (a : Agent) (f : CoreSt → CoreSt) : (modCore s a f).mem = s.mem := rfl
@[simp] theorem modCore_zero (s : State) (a : Agent) (f : CoreSt → CoreSt) : (modCore s a f).zero = s.zero := rfl
@[simp] theorem modCore_owner (s : State) (a : Agent) (f : CoreSt → CoreSt) : (modCore s a f).owner = s.owner := rfl
@[simp] theorem modCore_towers (s : State) (a : Agent) (f : CoreSt → CoreSt) : (modCore s a f).towers = s.towers := rfl
@[simp] theorem modCore_pkg (s : State) (a : Agent) (f : CoreSt → CoreSt) : (modCore s a f).pkg = s.pkg := rfl
@[simp] theorem modCore_tasks (s : State) (a : Agent) (f : CoreSt → CoreSt) : (modCore s a f).tasks = s.tasks := rfl
@[simp] theorem modCore_gangs (s : State) (a : Agent) (f : CoreSt → CoreSt) : (modCore s a f).gangs = s.gangs := rfl
@[simp] theorem modCore_acc (s : State) (a : Agent) (f : CoreSt → CoreSt) : (modCore s a f).acc = s.acc := rfl
@[simp] theorem modCore_jobs (s : State) (a : Agent) (f : CoreSt → CoreSt) : (modCore s a f).jobs = s.jobs := rfl
@[simp] theorem modCore_seals (s : State) (a : Agent) (f : CoreSt → CoreSt) : (modCore s a f).seals = s.seals := rfl
@[simp] theorem modCore_buses (s : State) (a : Agent) (f : CoreSt → CoreSt) : (modCore s a f).buses = s.buses := rfl
@[simp] theorem modCore_blocks (s : State) (a : Agent) (f : CoreSt → CoreSt) : (modCore s a f).blocks = s.blocks := rfl
@[simp] theorem modCore_pages (s : State) (a : Agent) (f : CoreSt → CoreSt) : (modCore s a f).pages = s.pages := rfl
@[simp] theorem modCore_freeing (s : State) (a : Agent) (f : CoreSt → CoreSt) : (modCore s a f).freeing = s.freeing := rfl
@[simp] theorem modCore_images (s : State) (a : Agent) (f : CoreSt → CoreSt) : (modCore s a f).images = s.images := rfl
@[simp] theorem modCore_binds (s : State) (a : Agent) (f : CoreSt → CoreSt) : (modCore s a f).binds = s.binds := rfl
@[simp] theorem modCore_pageIns (s : State) (a : Agent) (f : CoreSt → CoreSt) : (modCore s a f).pageIns = s.pageIns := rfl
@[simp] theorem modCore_evicts (s : State) (a : Agent) (f : CoreSt → CoreSt) : (modCore s a f).evicts = s.evicts := rfl
@[simp] theorem modCore_evWait (s : State) (a : Agent) (f : CoreSt → CoreSt) : (modCore s a f).evWait = s.evWait := rfl
@[simp] theorem modCore_merged (s : State) (a : Agent) (f : CoreSt → CoreSt) : (modCore s a f).merged = s.merged := rfl
@[simp] theorem modCore_bad (s : State) (a : Agent) (f : CoreSt → CoreSt) : (modCore s a f).bad = s.bad := rfl
@[simp] theorem modCore_walks (s : State) (a : Agent) (f : CoreSt → CoreSt) : (modCore s a f).walks = s.walks := rfl
@[simp] theorem modCore_corr (s : State) (a : Agent) (f : CoreSt → CoreSt) : (modCore s a f).corr = s.corr := rfl
@[simp] theorem modCore_cur (s : State) (a : Agent) (f : CoreSt → CoreSt) : (modCore s a f).cur = s.cur := rfl
@[simp] theorem modCore_moves (s : State) (a : Agent) (f : CoreSt → CoreSt) : (modCore s a f).moves = s.moves := rfl
@[simp] theorem modCore_inputs (s : State) (a : Agent) (f : CoreSt → CoreSt) : (modCore s a f).inputs = s.inputs := rfl
@[simp] theorem modCore_free (s : State) (a : Agent) (f : CoreSt → CoreSt) : (modCore s a f).free = s.free := rfl
@[simp] theorem modCore_nextId (s : State) (a : Agent) (f : CoreSt → CoreSt) : (modCore s a f).nextId = s.nextId := rfl
@[simp] theorem modCore_slow (s : State) (a : Agent) (f : CoreSt → CoreSt) : (modCore s a f).slow = s.slow := rfl

/-! ### What `modTower` leaves -/

@[simp] theorem modTower_mem (s : State) (t : BitVec 3) (f : TowerSt → TowerSt) : (modTower s t f).mem = s.mem := rfl
@[simp] theorem modTower_zero (s : State) (t : BitVec 3) (f : TowerSt → TowerSt) : (modTower s t f).zero = s.zero := rfl
@[simp] theorem modTower_owner (s : State) (t : BitVec 3) (f : TowerSt → TowerSt) : (modTower s t f).owner = s.owner := rfl
@[simp] theorem modTower_cores (s : State) (t : BitVec 3) (f : TowerSt → TowerSt) : (modTower s t f).cores = s.cores := rfl
@[simp] theorem modTower_pkg (s : State) (t : BitVec 3) (f : TowerSt → TowerSt) : (modTower s t f).pkg = s.pkg := rfl
@[simp] theorem modTower_tasks (s : State) (t : BitVec 3) (f : TowerSt → TowerSt) : (modTower s t f).tasks = s.tasks := rfl
@[simp] theorem modTower_gangs (s : State) (t : BitVec 3) (f : TowerSt → TowerSt) : (modTower s t f).gangs = s.gangs := rfl
@[simp] theorem modTower_acc (s : State) (t : BitVec 3) (f : TowerSt → TowerSt) : (modTower s t f).acc = s.acc := rfl
@[simp] theorem modTower_jobs (s : State) (t : BitVec 3) (f : TowerSt → TowerSt) : (modTower s t f).jobs = s.jobs := rfl
@[simp] theorem modTower_seals (s : State) (t : BitVec 3) (f : TowerSt → TowerSt) : (modTower s t f).seals = s.seals := rfl
@[simp] theorem modTower_buses (s : State) (t : BitVec 3) (f : TowerSt → TowerSt) : (modTower s t f).buses = s.buses := rfl
@[simp] theorem modTower_blocks (s : State) (t : BitVec 3) (f : TowerSt → TowerSt) : (modTower s t f).blocks = s.blocks := rfl
@[simp] theorem modTower_pages (s : State) (t : BitVec 3) (f : TowerSt → TowerSt) : (modTower s t f).pages = s.pages := rfl
@[simp] theorem modTower_freeing (s : State) (t : BitVec 3) (f : TowerSt → TowerSt) : (modTower s t f).freeing = s.freeing := rfl
@[simp] theorem modTower_images (s : State) (t : BitVec 3) (f : TowerSt → TowerSt) : (modTower s t f).images = s.images := rfl
@[simp] theorem modTower_binds (s : State) (t : BitVec 3) (f : TowerSt → TowerSt) : (modTower s t f).binds = s.binds := rfl
@[simp] theorem modTower_pageIns (s : State) (t : BitVec 3) (f : TowerSt → TowerSt) : (modTower s t f).pageIns = s.pageIns := rfl
@[simp] theorem modTower_evicts (s : State) (t : BitVec 3) (f : TowerSt → TowerSt) : (modTower s t f).evicts = s.evicts := rfl
@[simp] theorem modTower_evWait (s : State) (t : BitVec 3) (f : TowerSt → TowerSt) : (modTower s t f).evWait = s.evWait := rfl
@[simp] theorem modTower_merged (s : State) (t : BitVec 3) (f : TowerSt → TowerSt) : (modTower s t f).merged = s.merged := rfl
@[simp] theorem modTower_bad (s : State) (t : BitVec 3) (f : TowerSt → TowerSt) : (modTower s t f).bad = s.bad := rfl
@[simp] theorem modTower_walks (s : State) (t : BitVec 3) (f : TowerSt → TowerSt) : (modTower s t f).walks = s.walks := rfl
@[simp] theorem modTower_corr (s : State) (t : BitVec 3) (f : TowerSt → TowerSt) : (modTower s t f).corr = s.corr := rfl
@[simp] theorem modTower_cur (s : State) (t : BitVec 3) (f : TowerSt → TowerSt) : (modTower s t f).cur = s.cur := rfl
@[simp] theorem modTower_moves (s : State) (t : BitVec 3) (f : TowerSt → TowerSt) : (modTower s t f).moves = s.moves := rfl
@[simp] theorem modTower_inputs (s : State) (t : BitVec 3) (f : TowerSt → TowerSt) : (modTower s t f).inputs = s.inputs := rfl
@[simp] theorem modTower_free (s : State) (t : BitVec 3) (f : TowerSt → TowerSt) : (modTower s t f).free = s.free := rfl
@[simp] theorem modTower_nextId (s : State) (t : BitVec 3) (f : TowerSt → TowerSt) : (modTower s t f).nextId = s.nextId := rfl
@[simp] theorem modTower_slow (s : State) (t : BitVec 3) (f : TowerSt → TowerSt) : (modTower s t f).slow = s.slow := rfl

/-! ### What `modTask` leaves -/

@[simp] theorem modTask_mem (s : State) (f : Task → Task) : (modTask s f).mem = s.mem := rfl
@[simp] theorem modTask_zero (s : State) (f : Task → Task) : (modTask s f).zero = s.zero := rfl
@[simp] theorem modTask_owner (s : State) (f : Task → Task) : (modTask s f).owner = s.owner := rfl
@[simp] theorem modTask_towers (s : State) (f : Task → Task) : (modTask s f).towers = s.towers := rfl
@[simp] theorem modTask_pkg (s : State) (f : Task → Task) : (modTask s f).pkg = s.pkg := rfl
@[simp] theorem modTask_tasks (s : State) (f : Task → Task) : (modTask s f).tasks = s.tasks := rfl
@[simp] theorem modTask_gangs (s : State) (f : Task → Task) : (modTask s f).gangs = s.gangs := rfl
@[simp] theorem modTask_acc (s : State) (f : Task → Task) : (modTask s f).acc = s.acc := rfl
@[simp] theorem modTask_jobs (s : State) (f : Task → Task) : (modTask s f).jobs = s.jobs := rfl
@[simp] theorem modTask_seals (s : State) (f : Task → Task) : (modTask s f).seals = s.seals := rfl
@[simp] theorem modTask_buses (s : State) (f : Task → Task) : (modTask s f).buses = s.buses := rfl
@[simp] theorem modTask_blocks (s : State) (f : Task → Task) : (modTask s f).blocks = s.blocks := rfl
@[simp] theorem modTask_pages (s : State) (f : Task → Task) : (modTask s f).pages = s.pages := rfl
@[simp] theorem modTask_freeing (s : State) (f : Task → Task) : (modTask s f).freeing = s.freeing := rfl
@[simp] theorem modTask_images (s : State) (f : Task → Task) : (modTask s f).images = s.images := rfl
@[simp] theorem modTask_binds (s : State) (f : Task → Task) : (modTask s f).binds = s.binds := rfl
@[simp] theorem modTask_pageIns (s : State) (f : Task → Task) : (modTask s f).pageIns = s.pageIns := rfl
@[simp] theorem modTask_evicts (s : State) (f : Task → Task) : (modTask s f).evicts = s.evicts := rfl
@[simp] theorem modTask_evWait (s : State) (f : Task → Task) : (modTask s f).evWait = s.evWait := rfl
@[simp] theorem modTask_merged (s : State) (f : Task → Task) : (modTask s f).merged = s.merged := rfl
@[simp] theorem modTask_bad (s : State) (f : Task → Task) : (modTask s f).bad = s.bad := rfl
@[simp] theorem modTask_walks (s : State) (f : Task → Task) : (modTask s f).walks = s.walks := rfl
@[simp] theorem modTask_corr (s : State) (f : Task → Task) : (modTask s f).corr = s.corr := rfl
@[simp] theorem modTask_cur (s : State) (f : Task → Task) : (modTask s f).cur = s.cur := rfl
@[simp] theorem modTask_moves (s : State) (f : Task → Task) : (modTask s f).moves = s.moves := rfl
@[simp] theorem modTask_inputs (s : State) (f : Task → Task) : (modTask s f).inputs = s.inputs := rfl
@[simp] theorem modTask_free (s : State) (f : Task → Task) : (modTask s f).free = s.free := rfl
@[simp] theorem modTask_nextId (s : State) (f : Task → Task) : (modTask s f).nextId = s.nextId := rfl
@[simp] theorem modTask_slow (s : State) (f : Task → Task) : (modTask s f).slow = s.slow := rfl

/-! ### What `modTaskOf` leaves -/

@[simp] theorem modTaskOf_mem (s : State) (a : Agent) (f : Task → Task) : (modTaskOf s a f).mem = s.mem := rfl
@[simp] theorem modTaskOf_zero (s : State) (a : Agent) (f : Task → Task) : (modTaskOf s a f).zero = s.zero := rfl
@[simp] theorem modTaskOf_owner (s : State) (a : Agent) (f : Task → Task) : (modTaskOf s a f).owner = s.owner := rfl
@[simp] theorem modTaskOf_towers (s : State) (a : Agent) (f : Task → Task) : (modTaskOf s a f).towers = s.towers := rfl
@[simp] theorem modTaskOf_pkg (s : State) (a : Agent) (f : Task → Task) : (modTaskOf s a f).pkg = s.pkg := rfl
@[simp] theorem modTaskOf_tasks (s : State) (a : Agent) (f : Task → Task) : (modTaskOf s a f).tasks = s.tasks := rfl
@[simp] theorem modTaskOf_gangs (s : State) (a : Agent) (f : Task → Task) : (modTaskOf s a f).gangs = s.gangs := rfl
@[simp] theorem modTaskOf_acc (s : State) (a : Agent) (f : Task → Task) : (modTaskOf s a f).acc = s.acc := rfl
@[simp] theorem modTaskOf_jobs (s : State) (a : Agent) (f : Task → Task) : (modTaskOf s a f).jobs = s.jobs := rfl
@[simp] theorem modTaskOf_seals (s : State) (a : Agent) (f : Task → Task) : (modTaskOf s a f).seals = s.seals := rfl
@[simp] theorem modTaskOf_buses (s : State) (a : Agent) (f : Task → Task) : (modTaskOf s a f).buses = s.buses := rfl
@[simp] theorem modTaskOf_blocks (s : State) (a : Agent) (f : Task → Task) : (modTaskOf s a f).blocks = s.blocks := rfl
@[simp] theorem modTaskOf_pages (s : State) (a : Agent) (f : Task → Task) : (modTaskOf s a f).pages = s.pages := rfl
@[simp] theorem modTaskOf_freeing (s : State) (a : Agent) (f : Task → Task) : (modTaskOf s a f).freeing = s.freeing := rfl
@[simp] theorem modTaskOf_images (s : State) (a : Agent) (f : Task → Task) : (modTaskOf s a f).images = s.images := rfl
@[simp] theorem modTaskOf_binds (s : State) (a : Agent) (f : Task → Task) : (modTaskOf s a f).binds = s.binds := rfl
@[simp] theorem modTaskOf_pageIns (s : State) (a : Agent) (f : Task → Task) : (modTaskOf s a f).pageIns = s.pageIns := rfl
@[simp] theorem modTaskOf_evicts (s : State) (a : Agent) (f : Task → Task) : (modTaskOf s a f).evicts = s.evicts := rfl
@[simp] theorem modTaskOf_evWait (s : State) (a : Agent) (f : Task → Task) : (modTaskOf s a f).evWait = s.evWait := rfl
@[simp] theorem modTaskOf_merged (s : State) (a : Agent) (f : Task → Task) : (modTaskOf s a f).merged = s.merged := rfl
@[simp] theorem modTaskOf_bad (s : State) (a : Agent) (f : Task → Task) : (modTaskOf s a f).bad = s.bad := rfl
@[simp] theorem modTaskOf_walks (s : State) (a : Agent) (f : Task → Task) : (modTaskOf s a f).walks = s.walks := rfl
@[simp] theorem modTaskOf_corr (s : State) (a : Agent) (f : Task → Task) : (modTaskOf s a f).corr = s.corr := rfl
@[simp] theorem modTaskOf_cur (s : State) (a : Agent) (f : Task → Task) : (modTaskOf s a f).cur = s.cur := rfl
@[simp] theorem modTaskOf_moves (s : State) (a : Agent) (f : Task → Task) : (modTaskOf s a f).moves = s.moves := rfl
@[simp] theorem modTaskOf_inputs (s : State) (a : Agent) (f : Task → Task) : (modTaskOf s a f).inputs = s.inputs := rfl
@[simp] theorem modTaskOf_free (s : State) (a : Agent) (f : Task → Task) : (modTaskOf s a f).free = s.free := rfl
@[simp] theorem modTaskOf_nextId (s : State) (a : Agent) (f : Task → Task) : (modTaskOf s a f).nextId = s.nextId := rfl
@[simp] theorem modTaskOf_slow (s : State) (a : Agent) (f : Task → Task) : (modTaskOf s a f).slow = s.slow := rfl

end Sys2Proof.Machine
end

