-- ==== Sys2Proof/Laws/Memory.lean ====
section
/-!
SUPPORT. Laws of memory: what each operation on it can do, said once. Every one of them keeps the canonical form.
-/
namespace Sys2Proof.Machine

/-! ### Reading -/

/-- Two states with the same cells read the same outside the instruction-cache share. -/
theorem readByte_of_mem {s t : State} {a : Nat} (h : t.mem = s.mem) (c : showsCache a = false) : readByte t a = readByte s a := by
  simp only [showsCache, Bool.and_eq_false_iff, decide_eq_false_iff_not] at c
  simp only [readByte, h]
  rw [if_neg, if_neg] <;> (rintro ⟨x, y⟩; simp_all)

theorem sameBytes_of_mem {s t : State} (h : t.mem = s.mem) : SameBytes s t := fun _ c => readByte_of_mem h c

/-- Outside the instruction-cache share a byte reads as its cell. -/
theorem readByte_eq {s : State} {a : Nat} (c : showsCache a = false) : readByte s a = cellGet s.mem a := by
  simp only [showsCache, Bool.and_eq_false_iff, decide_eq_false_iff_not] at c
  simp only [readByte]
  rw [if_neg]
  rintro ⟨x, y⟩; simp_all

theorem keptBits_not_cache {a : Nat} (w : keptBits a ≠ 0) : showsCache a = false := by
  simp only [showsCache, Bool.and_eq_false_iff, decide_eq_false_iff_not]
  by_cases h : inPool a = true
  · refine .inr fun e => w ?_
    have b : 0x2400000 ≤ bits a 27 0 ∧ bits a 27 0 < 0x2800000 := by
      simp only [poolShare] at e
      split at e <;> first | cases e | skip
      split at e <;> first | cases e | skip
      split at e <;> first | omega | skip
      split at e <;> cases e
    simp only [keptBits, h, ↓reduceIte, e, or_true]
    repeat rw [if_neg (by omega)]
  · exact .inl (by simpa using h)

theorem writable_kept {a : Nat} (w : writable a = true) : keptBits a = 0xFF := of_decide_eq_true w

theorem writable_not_cache {a : Nat} (w : writable a = true) : showsCache a = false :=
  keptBits_not_cache (by rw [writable_kept w]; decide)

@[simp] theorem readBytes_length (s : State) (a n : Nat) : (readBytes s a n).length = n := by
  induction n generalizing a with
  | zero => rfl
  | succ n ih => simp [readBytes, ih]

theorem readBytes_getD (s : State) (a n i : Nat) (h : i < n) : (readBytes s a n).getD i 0 = readByte s (a + i) := by
  induction n generalizing a i with
  | zero => omega
  | succ n ih =>
    cases i with
    | zero => simp [readBytes]
    | succ i => simpa [readBytes, Nat.add_assoc, Nat.add_comm 1] using ih (a + 1) i (by omega)

/-! ### Writing bytes -/

/-- A written byte: the cell of its address, in the bits that take effect. -/
theorem cellGet_writeByte {s : State} (w : Sound s) (a : Nat) (b : Byte) (k : Nat) :
    cellGet (writeByte s a b).mem k = if k = a ∧ keptBits a ≠ 0 then b &&& keptBits a else cellGet s.mem k := by
  unfold writeByte
  split <;> rename_i h
  · simp [h]
  · rw [show ({ s with mem := cellSet s.mem a (b &&& keptBits a) } : State).mem = cellSet s.mem a (b &&& keptBits a) from rfl,
      cellGet_cellSet w]
    simp only [h, ne_eq, not_false_eq_true, and_true]

theorem sound_writeByte {s : State} (w : Sound s) (a : Nat) (b : Byte) : Sound (writeByte s a b) := by
  unfold writeByte
  split
  · exact w
  · exact memory_wf_cellSet a _ w

/-- Nothing but memory changes when a byte is written. -/
theorem writeByte_frame (s : State) (a : Nat) (b : Byte) : ∃ m, writeByte s a b = { s with mem := m } := by
  unfold writeByte
  split
  · exact ⟨s.mem, rfl⟩
  · exact ⟨_, rfl⟩

theorem writeBytes_frame (s : State) (a : Nat) (l : List Byte) : ∃ m, writeBytes s a l = { s with mem := m } := by
  induction l generalizing s a with
  | nil => exact ⟨s.mem, rfl⟩
  | cons b l ih =>
    obtain ⟨m, h⟩ := writeByte_frame s a b
    obtain ⟨n, g⟩ := ih (writeByte s a b) (a + 1)
    exact ⟨n, by rw [writeBytes, g, h]⟩

theorem sound_writeBytes {s : State} (w : Sound s) (a : Nat) (l : List Byte) : Sound (writeBytes s a l) := by
  induction l generalizing s a with
  | nil => exact w
  | cons b l ih => exact ih (sound_writeByte w a b) (a + 1)

/-- Written bytes: each cell of the range holds its byte, in the bits that take effect; every other cell is as before. -/
theorem cellGet_writeBytes {s : State} (w : Sound s) (a : Nat) (l : List Byte) (k : Nat) :
    cellGet (writeBytes s a l).mem k =
      if a ≤ k ∧ k < a + l.length ∧ keptBits k ≠ 0 then l.getD (k - a) 0 &&& keptBits k else cellGet s.mem k := by
  induction l generalizing s a with
  | nil => simp only [writeBytes, List.length_nil]; rw [if_neg (by omega)]
  | cons b l ih =>
    rw [writeBytes, ih (sound_writeByte w a b), cellGet_writeByte w, List.length_cons]
    by_cases e : k = a
    · subst e
      rw [if_neg (by omega)]
      by_cases h : keptBits k ≠ 0
      · rw [if_pos ⟨rfl, h⟩, if_pos ⟨by omega, by omega, h⟩]; simp
      · rw [if_neg (fun x => h x.2), if_neg (fun x => h x.2.2)]
    · by_cases h : a + 1 ≤ k ∧ k < a + 1 + l.length ∧ keptBits k ≠ 0
      · rw [if_pos h, if_pos ⟨by omega, by omega, h.2.2⟩, show k - a = (k - (a + 1)) + 1 by omega]; simp
      · rw [if_neg h, if_neg (by simp [e]), if_neg (by rintro ⟨x, y, z⟩; exact h ⟨by omega, by omega, z⟩)]

theorem sound_writeNat {s : State} (w : Sound s) (a n x : Nat) : Sound (writeNat s a n x) := sound_writeBytes w _ _

theorem sound_putField {s : State} (w : Sound s) (a hi lo v : Nat) : Sound (putField s a hi lo v) := sound_writeNat w _ _ _

/-! ### Pending zeroes -/

/-- Clearing pending bits changes nothing but the list of them. -/
theorem storePending_frame (s : State) (a n : Nat) : ∃ z, storePending s a n = { s with zero := z } := by
  unfold storePending
  split
  · exact ⟨_, rfl⟩
  · exact ⟨s.zero, rfl⟩

@[simp] theorem storePending_mem (s : State) (a n : Nat) : (storePending s a n).mem = s.mem := by
  obtain ⟨z, h⟩ := storePending_frame s a n; rw [h]

theorem sound_storePending {s : State} (w : Sound s) (a n : Nat) : Sound (storePending s a n) := by
  unfold Sound; rwa [storePending_mem]

theorem sound_allocZero {s : State} (w : Sound s) (base len : Nat) (page : Bool) (ctx : BitVec 12) :
    Sound (allocZero s base len page ctx) := by
  unfold allocZero
  split
  · exact w
  · exact memory_wf_cellsClear base len w

theorem sound_giveTo {s : State} (w : Sound s) (base len : Nat) (ctx : BitVec 12) : Sound (giveTo s base len ctx) := w

/-! ### Writes as events -/

theorem storeNote_frame (s : State) (a : Nat) (l : List Byte) :
    ∃ m z b, (storeNote s a l).1 = { s with mem := m, zero := z, bad := b } := by
  obtain ⟨z, hz⟩ := storePending_frame s a l.length
  obtain ⟨m, hm⟩ := writeBytes_frame { s with zero := z } a l
  have e : writeBytes (storePending s a l.length) a l = { s with mem := m, zero := z } := by rw [hz, hm]
  refine ⟨m, z, (storeNote s a l).1.bad, ?_⟩
  show ({ writeBytes (storePending s a l.length) a l with bad := (storeNote s a l).1.bad } : State) = _
  rw [e]

theorem storeNote_mem (s : State) (a : Nat) (l : List Byte) :
    (storeNote s a l).1.mem = (writeBytes (storePending s a l.length) a l).mem := rfl

theorem sound_storeNote {s : State} (w : Sound s) (a : Nat) (l : List Byte) : Sound (storeNote s a l).1 :=
  sound_writeBytes (s := storePending s a l.length) (sound_storePending w a l.length) a l

/-- Triggers change only the towers' lists of them. -/
theorem sendTrigs_frame (s : State) (rs hs : List (Nat × Nat)) : ∃ t, sendTrigs s rs hs = { s with towers := t } ∧
    ∀ w, ∃ g, getTower (sendTrigs s rs hs) w = { getTower s w with trigs := g } := by
  unfold sendTrigs
  induction hs generalizing s with
  | nil => exact ⟨s.towers, rfl, fun w => ⟨(getTower s w).trigs, rfl⟩⟩
  | cons h hs ih =>
    rw [List.foldl_cons]
    let u := BitVec.ofNat 3 h.1
    let x : Trig := { entry := h.2, first := firstInside (watchBase s u h.2) (watchLen s u h.2) rs, start := (rs.headD (0, 0)).1 }
    obtain ⟨t, e, g⟩ := ih (modTower s u (fun w => { w with trigs := w.trigs ++ [x] }))
    refine ⟨t, by rw [e]; rfl, fun w => ?_⟩
    obtain ⟨x, hx⟩ := g w
    by_cases c : w = BitVec.ofNat 3 h.1
    · subst c; exact ⟨x, by rw [hx, getTower_modTower_self]⟩
    · exact ⟨x, by rw [hx, getTower_modTower_ne _ _ _ _ c]⟩

/-- The states that a list of written pieces passes through: only memory, pending zeroes and granules with errors change. -/
theorem storeNotes_frame (ps : List (Nat × List Byte)) (s : State) (hs : List (Nat × Nat)) :
    ∃ m z b g, ps.foldl (fun x p => ((storeNote x.1 p.1 p.2).1, addHits x.2 (storeNote x.1 p.1 p.2).2)) (s, hs) =
      ({ s with mem := m, zero := z, bad := b }, g) := by
  induction ps generalizing s hs with
  | nil => exact ⟨s.mem, s.zero, s.bad, hs, rfl⟩
  | cons p ps ih =>
    rw [List.foldl_cons]
    obtain ⟨m, z, b, e⟩ := storeNote_frame s p.1 p.2
    obtain ⟨m', z', b', g, e'⟩ := ih (storeNote s p.1 p.2).1 (addHits hs (storeNote s p.1 p.2).2)
    exact ⟨m', z', b', g, by rw [e', e]⟩

theorem sound_storeNotes (ps : List (Nat × List Byte)) {s : State} (hs : List (Nat × Nat)) (w : Sound s) :
    Sound (ps.foldl (fun x p => ((storeNote x.1 p.1 p.2).1, addHits x.2 (storeNote x.1 p.1 p.2).2)) (s, hs)).1 := by
  induction ps generalizing s hs with
  | nil => exact w
  | cons p ps ih => exact ih _ (sound_storeNote w p.1 p.2)

/-- The rest of a triggering write changes memory, pending zeroes, granules with errors and the towers' triggers, and nothing
else. -/
theorem storeRest_frame (s : State) (ps : List (Nat × List Byte)) (rs hs : List (Nat × Nat)) : ∃ m z b t,
    storeRest s ps rs hs = { s with mem := m, zero := z, bad := b, towers := t } ∧
      ∀ w, ∃ g, getTower (storeRest s ps rs hs) w = { getTower s w with trigs := g } := by
  unfold storeRest
  obtain ⟨m, z, b, g, e⟩ := storeNotes_frame ps s hs
  simp only [e]
  obtain ⟨t, e', h⟩ := sendTrigs_frame { s with mem := m, zero := z, bad := b } rs g
  exact ⟨m, z, b, t, e', h⟩

/-- So does a triggering write. -/
theorem storeAll_frame (s : State) (ps : List (Nat × List Byte)) : ∃ m z b t,
    storeAll s ps = { s with mem := m, zero := z, bad := b, towers := t } ∧
      ∀ w, ∃ g, getTower (storeAll s ps) w = { getTower s w with trigs := g } := storeRest_frame s ps _ _

theorem sound_sendTrigs {s : State} (w : Sound s) (rs hs : List (Nat × Nat)) : Sound (sendTrigs s rs hs) := by
  obtain ⟨t, e, _⟩ := sendTrigs_frame s rs hs
  rw [e]; exact w

theorem sound_storeRest {s : State} (w : Sound s) (ps : List (Nat × List Byte)) (rs hs : List (Nat × Nat)) :
    Sound (storeRest s ps rs hs) := by
  have h := sound_storeNotes ps hs w
  unfold storeRest
  exact sound_sendTrigs h _ _

theorem sound_storeAll {s : State} (w : Sound s) (ps : List (Nat × List Byte)) : Sound (storeAll s ps) := sound_storeRest w ps _ _

theorem sound_storeTrig {s : State} (w : Sound s) (a : Nat) (l : List Byte) : Sound (storeTrig s a l) := sound_storeAll w _

/-- Read after a triggering write of one run of bytes. -/
theorem cellGet_storeTrig {s : State} (w : Sound s) (a : Nat) (l : List Byte) (k : Nat) :
    cellGet (storeTrig s a l).mem k =
      if a ≤ k ∧ k < a + l.length ∧ keptBits k ≠ 0 then l.getD (k - a) 0 &&& keptBits k else cellGet s.mem k := by
  have e : (storeTrig s a l).mem = (storeNote s a l).1.mem := by
    unfold storeTrig storeAll storeRest
    obtain ⟨t, e, _⟩ := sendTrigs_frame (storeNote s a l).1 [(a, l.length)] (addHits [] (storeNote s a l).2)
    simp only [List.foldl_cons, List.foldl_nil, List.map_cons, List.map_nil]
    rw [e]
  rw [e, storeNote_mem, cellGet_writeBytes (sound_storePending w a l.length), storePending_mem]

/-- A write of the device itself keeps the canonical form. -/
theorem sound_storeQuiet {s : State} (w : Sound s) (a : Nat) (l : List Byte) : Sound (storeQuiet s a l) :=
  sound_writeBytes (s := storePending s a l.length) (sound_storePending w a l.length) a l

theorem cellGet_storeQuiet {s : State} (w : Sound s) (a : Nat) (l : List Byte) (k : Nat) :
    cellGet (storeQuiet s a l).mem k =
      if a ≤ k ∧ k < a + l.length ∧ keptBits k ≠ 0 then l.getD (k - a) 0 &&& keptBits k else cellGet s.mem k := by
  have e : (storeQuiet s a l).mem = (writeBytes (storePending s a l.length) a l).mem := rfl
  rw [e, cellGet_writeBytes (sound_storePending w a l.length), storePending_mem]

/-! ### Reset -/

theorem sound_reset : Sound State.reset := rfl

end Sys2Proof.Machine
end

