-- ==== Sys2Proof/Laws/Ops.lean ====
section
/-!
SUPPORT. Laws of the shared operations: results on their way, events, taking an exception, waiting, and the gate before a
syllable's effect. Each says once everything its operation can do.
-/
namespace Sys2Proof.Machine

/-! ### Results on their way -/

/-- A result on its way changes nothing but the acting core's task. -/
theorem pushDue_frame (s : State) (lat slot : Nat) (d : Dest) (ring : Option Ring) (fl : BitVec 3) (bad : Option Word) :
    ∃ m, pushDue s lat slot d ring fl bad = { s with cores := m } := ⟨_, rfl⟩

theorem sound_pushDue {s : State} (w : Sound s) (lat slot : Nat) (d : Dest) (ring : Option Ring) (fl : BitVec 3)
    (bad : Option Word) : Sound (pushDue s lat slot d ring fl bad) := w

@[simp] theorem pushScalar_eq (s : State) (lat slot r : Nat) (x : Word) (ring : Option Ring) :
    pushScalar s lat slot r x ring = pushDue s lat slot (.scalar r x) ring := rfl

/-! ### Events -/

/-- Posting changes the tower's queue and log, the package's interrupt bits, and at most the supervisor core's OVF bit. -/
theorem postEntry_frame (s : State) (t : BitVec 3) (e : EvEntry) :
    ∃ m w p, postEntry s t e = { s with cores := m, towers := w, pkg := p } := by
  unfold postEntry
  split
  · exact ⟨s.cores, s.towers, s.pkg, rfl⟩
  · dsimp only
    split <;> exact ⟨_, _, _, rfl⟩

@[simp] theorem postEntry_mem (s : State) (t : BitVec 3) (e : EvEntry) : (postEntry s t e).mem = s.mem := by
  obtain ⟨_, _, _, h⟩ := postEntry_frame s t e; rw [h]

theorem postEvent_frame (s : State) (t : BitVec 3) (code : Nat) (fadr fbnd : Word) (detail core : Nat) :
    ∃ m w p, postEvent s t code fadr fbnd detail core = { s with cores := m, towers := w, pkg := p } := postEntry_frame _ _ _

@[simp] theorem postEvent_mem (s : State) (t : BitVec 3) (code : Nat) (fadr fbnd : Word) (detail core : Nat) :
    (postEvent s t code fadr fbnd detail core).mem = s.mem := postEntry_mem _ _ _

theorem sound_postEvent {s : State} (w : Sound s) (t : BitVec 3) (code : Nat) (fadr fbnd : Word) (detail core : Nat) :
    Sound (postEvent s t code fadr fbnd detail core) := by
  unfold Sound; rwa [postEvent_mem]

@[simp] theorem postTrap_mem (s : State) (t : BitVec 3) (c : FCode) (fadr fbnd : Word) (detail : Nat) :
    (postTrap s t c fadr fbnd detail).mem = s.mem := postEntry_mem _ _ _

/-! ### Taking an exception -/

/-- Latching a core's results writes its share of the shadow results and nothing else. -/
theorem latchBuffer_frame (s : State) (t : BitVec 3) (c : BitVec 6) (k : Task) :
    ∃ m z b, latchBuffer s t c k = { s with mem := m, zero := z, bad := b } := by
  unfold latchBuffer storeQuiet
  obtain ⟨z, h⟩ := storePending_frame s (poolFlat t (0x2800000 + c.toNat * 0x10000))
    ((List.range (bufferSize k)).map (Config.slotByte 0x4000 (bufferNats k))).length
  obtain ⟨m, h'⟩ := writeBytes_frame _ _ _
  exact ⟨_, _, _, by dsimp only; rw [h', h]⟩

theorem sound_latchBuffer {s : State} (w : Sound s) (t : BitVec 3) (c : BitVec 6) (k : Task) : Sound (latchBuffer s t c k) :=
  sound_storeQuiet w _ _

theorem postTrap_frame (s : State) (t : BitVec 3) (c : FCode) (fadr fbnd : Word) (detail : Nat) :
    ∃ m w p, postTrap s t c fadr fbnd detail = { s with cores := m, towers := w, pkg := p } := postEntry_frame _ _ _

/-- The posts of a freeze change cores, towers and the package's registers. -/
theorem freezePosts_frame (s : State) (a : Agent) (x : CoreSt) (t : BitVec 3) (d : Prop) [Decidable d] (c : FCode) (u v : Word)
    (n q : Nat) (u' v' : Word) (k : Nat) :
    ∃ m w p, postEvent (if d then postTrap (setCore s a x) t c u v n else setCore s a x) t q u' v' 0 k =
      { s with cores := m, towers := w, pkg := p } := by
  obtain ⟨m, w, p, h⟩ : ∃ m w p, (if d then postTrap (setCore s a x) t c u v n else setCore s a x) =
      { s with cores := m, towers := w, pkg := p } := by
    split
    · obtain ⟨m, w, p, h⟩ := postTrap_frame (setCore s a x) t c u v n
      exact ⟨m, w, p, h⟩
    · exact ⟨_, _, _, rfl⟩
  obtain ⟨m', w', p', h'⟩ := postEvent_frame { s with cores := m, towers := w, pkg := p } t q u' v' 0 k
  exact ⟨m', w', p', by rw [h]; exact h'⟩

/-- A freeze latches the core's results and changes cores, towers and the package's registers. -/
theorem freeze_frame (s : State) (t : BitVec 3) (c : BitVec 6) (f : FaultInfo) :
    ∃ m w p, freeze s t c f = { latchBuffer s t c (getCore s (.core t c)).task with cores := m, towers := w, pkg := p } := by
  unfold freeze
  dsimp only
  generalize latchBuffer s t c (getCore s (.core t c)).task = y
  exact freezePosts_frame y (.core t c) (frozenCore (getCore s (.core t c)) f) t (f.cls = 5) f.code f.adr
    (getCore s (.core t c)).task.pc f.detail.toNat 0x41 (frozenCore (getCore s (.core t c)) f).fsyn
    ((getCore s (.core t c)).task.num.setWidth 64) c.toNat

theorem sound_freeze {s : State} (w : Sound s) (t : BitVec 3) (c : BitVec 6) (f : FaultInfo) : Sound (freeze s t c f) := by
  obtain ⟨_, _, _, h⟩ := freeze_frame s t c f
  rw [h]; exact sound_latchBuffer w _ _ _

/-- Taking an exception changes cores, towers, the package's registers, the walks whose failure is learnt of, the free counter and
the core's share of the shadow results, and nothing else. -/
theorem takeFault_frame (s : State) (a : Agent) (f : FaultInfo) :
    ∃ x z b m w p k n, takeFault s a f =
      { s with mem := x, zero := z, bad := b, cores := m, towers := w, pkg := p, walks := k, free := n } := by
  unfold takeFault
  dsimp only
  split
  · generalize hy : dropWalks (endWaits { s with free := s.free + 1 } _ f.tile) _ = y
    obtain ⟨_, _, _, h⟩ := freeze_frame y _ _ f
    obtain ⟨_, _, _, h'⟩ := latchBuffer_frame y _ _ _
    rw [h, h', ← hy]
    exact ⟨_, _, _, _, _, _, _, _, rfl⟩
  · split <;> exact ⟨_, _, _, _, _, _, _, _, rfl⟩

/-- A supervisor core's exception leaves memory. -/
@[simp] theorem takeFault_sup_mem (s : State) (t : BitVec 3) (f : FaultInfo) : (takeFault s (.sup t) f).mem = s.mem := by
  unfold takeFault; dsimp only; split <;> rfl

theorem sound_takeFault {s : State} (w : Sound s) (a : Agent) (f : FaultInfo) : Sound (takeFault s a f) := by
  cases a with
  | core t c =>
    have h : Sound (dropWalks (endWaits { s with free := s.free + 1 } (.core t c) f.tile) (.core t c)) := w
    exact sound_freeze h t c f
  | sup t => unfold Sound; rw [takeFault_sup_mem]; exact w

/-- The return from a trap changes only the tower's supervisor core. -/
theorem returnTrap_frame (s : State) (t : BitVec 3) : ∃ m w, returnTrap s t = { s with cores := m, towers := w } := ⟨_, _, rfl⟩

/-! ### Waiting -/

/-- A miss changes the walks and the identifiers, and nothing else. -/
theorem askWalk_frame (s : State) (a : Agent) (ctx : BitVec 12) (va : Word) (b : Bool) :
    ∃ k n, askWalk s a ctx va b = { s with walks := k, nextId := n } := by
  unfold askWalk
  split
  · exact ⟨_, _, rfl⟩
  · split <;> exact ⟨_, _, rfl⟩

/-- A core that begins to ask changes itself alone. -/
theorem beginAsking_frame (s : State) (t : BitVec 3) (c : BitVec 6) : ∃ m, beginAsking s t c = { s with cores := m } := by
  unfold beginAsking
  dsimp only
  split <;> exact ⟨_, rfl⟩

theorem beginAskingAt_frame (s : State) (a : Agent) : ∃ m, beginAskingAt s a = { s with cores := m } := by
  cases a with
  | core t c => exact beginAsking_frame s t c
  | sup _ => exact ⟨_, rfl⟩

/-- A MACC that waits changes its core alone. -/
theorem markMaccWait_frame (s : State) : ∃ m, markMaccWait s = { s with cores := m } := by
  unfold markMaccWait
  split
  · obtain ⟨m, e⟩ := beginAskingAt_frame s s.cur
    rw [e]
    exact ⟨_, rfl⟩
  · exact ⟨_, rfl⟩

/-- The mark of a wait changes the acting core, its bus group, its gang or the walks, and nothing else. -/
theorem markWait_frame (s : State) (w : WaitMark) :
    ∃ m b g k n, markWait s w = { s with cores := m, buses := b, gangs := g, walks := k, nextId := n } := by
  cases w
  case walk va => obtain ⟨k, n, h⟩ := askWalk_frame s s.cur (curTask s).ctx va false; exact ⟨_, _, _, k, n, h⟩
  case link va => obtain ⟨k, n, h⟩ := askWalk_frame s s.cur (fetchCtx s s.cur) va true; exact ⟨_, _, _, k, n, h⟩
  case slice => obtain ⟨m, h⟩ := markMaccWait_frame _; exact ⟨m, _, _, _, _, h⟩
  case beat => obtain ⟨m, h⟩ := markMaccWait_frame s; exact ⟨m, _, _, _, _, h⟩
  all_goals exact ⟨_, _, _, _, _, rfl⟩

@[simp] theorem markWait_mem (s : State) (w : WaitMark) : (markWait s w).mem = s.mem := by
  obtain ⟨_, _, _, _, _, h⟩ := markWait_frame s w; rw [h]

@[simp] theorem settle_done (s t : State) : settle s (.done t) = t := rfl
@[simp] theorem settle_trap (s : State) (f : FaultInfo) : settle s (.trap f) = takeFault s s.cur f := rfl
@[simp] theorem settle_stall (s : State) : settle s .stall = s := rfl
@[simp] theorem settle_wait (s : State) (w : WaitMark) : settle s (.wait w) = markWait s w := rfl

@[simp] theorem act_bind_done (s : State) (f : State → Act) : (Act.done s).bind f = f s := rfl
@[simp] theorem act_bind_trap (x : FaultInfo) (f : State → Act) : (Act.trap x).bind f = .trap x := rfl
@[simp] theorem act_bind_stall (f : State → Act) : Act.stall.bind f = .stall := rfl
@[simp] theorem act_bind_wait (w : WaitMark) (f : State → Act) : (Act.wait w).bind f = .wait w := rfl

/-- An action keeps memory's form if, when it is done, its state has it. -/
theorem sound_settle {s : State} {x : Act} (w : Sound s) (h : ∀ t, x = .done t → Sound t) : Sound (settle s x) := by
  cases x with
  | done t => exact h t rfl
  | trap f => exact sound_takeFault w _ f
  | stall => exact w
  | wait m => unfold Sound; rw [settle_wait, markWait_mem]; exact w

/-! ### The gate -/

/-- A syllable that may run has its own effect. -/
theorem gate_ready {i : Instr} {s : State} (h : Ready i s) (act : State → Act) : gate i act s = act s := by
  obtain ⟨a, b, c⟩ := h
  simp [gate, a, b, c]

theorem runGated_ready {i : Instr} {s : State} (h : Ready i s) (act : State → Act) :
    runGated i act s = .next (settle s (act s)) := by rw [runGated, gate_ready h]

/-- A syllable that may run and is done: the state its effect gives. -/
theorem runGated_done {i : Instr} {s t : State} {act : State → Act} (h : Ready i s) (e : act s = .done t) :
    runGated i act s = .next t := by rw [runGated_ready h, e, settle_done]

/-- A syllable always answers a next state. -/
theorem runGated_next (i : Instr) (act : State → Act) (s : State) : ∃ t, runGated i act s = .next t := ⟨_, rfl⟩

/-- A false predicate leaves nothing of a syllable (R223). -/
theorem runGated_off {i : Instr} {s : State} (act : State → Act) (h : predicateHolds (curTask s) i.head = false) :
    runGated i act s = .next s := by simp [runGated, gate, h]

/-- A decode fault is taken in place of the effect (R227). -/
theorem runGated_decode_fault {i : Instr} {s : State} {f : FaultInfo} (act : State → Act)
    (h : predicateHolds (curTask s) i.head = true) (e : decodeFault none s i = some f) :
    runGated i act s = .next (takeFault s s.cur f) := by simp [runGated, gate, h, e]

end Sys2Proof.Machine
end

