-- ==== Sys2Proof/Laws/PerInstr.lean ====
section
/-!
SUPPORT. One lemma for every instruction, as syntax: a syllable stands in one of the twelve slots under an opcode byte that is
not the reserved 0; a step that is no syllable has no slot and no opcode (R220, R221).
-/
namespace Sys2Proof

/-- Where an instruction stands and what its opcode byte is. -/
def Laws.Placed.Statement (i : Instr) : Prop :=
  match i.slot with
  | some n => n < 12 ∧ 0 < i.opc ∧ i.opc < 2 ^ 8
  | none => i.opc = 0

theorem Laws.Placed.nop (stop : Bool) :
    Laws.Placed.Statement (.nop stop) := rfl
theorem Laws.Placed.bundleIssue (a : Agent) :
    Laws.Placed.Statement (.bundleIssue a) := rfl
theorem Laws.Placed.budgetTrap (t : BitVec 3) (c : BitVec 6) :
    Laws.Placed.Statement (.budgetTrap t c) := rfl
theorem Laws.Placed.add (p : Port) (h : Head) (f : SReg) :
    Laws.Placed.Statement (.add p h f) := by cases p <;> exact ⟨of_decide_eq_true rfl, of_decide_eq_true rfl, of_decide_eq_true rfl⟩
theorem Laws.Placed.sub (p : Port) (h : Head) (f : SReg) :
    Laws.Placed.Statement (.sub p h f) := by cases p <;> exact ⟨of_decide_eq_true rfl, of_decide_eq_true rfl, of_decide_eq_true rfl⟩
theorem Laws.Placed.addi (p : Port) (h : Head) (f : SImm) :
    Laws.Placed.Statement (.addi p h f) := by cases p <;> exact ⟨of_decide_eq_true rfl, of_decide_eq_true rfl, of_decide_eq_true rfl⟩
theorem Laws.Placed.mul (p : Port) (h : Head) (f : SReg) :
    Laws.Placed.Statement (.mul p h f) := by cases p <;> exact ⟨of_decide_eq_true rfl, of_decide_eq_true rfl, of_decide_eq_true rfl⟩
theorem Laws.Placed.mulh (p : Port) (h : Head) (f : SReg) :
    Laws.Placed.Statement (.mulh p h f) := by cases p <;> exact ⟨of_decide_eq_true rfl, of_decide_eq_true rfl, of_decide_eq_true rfl⟩
theorem Laws.Placed.mulhu (p : Port) (h : Head) (f : SReg) :
    Laws.Placed.Statement (.mulhu p h f) := by cases p <;> exact ⟨of_decide_eq_true rfl, of_decide_eq_true rfl, of_decide_eq_true rfl⟩
theorem Laws.Placed.div (h : Head) (f : SReg) :
    Laws.Placed.Statement (.div h f) := ⟨of_decide_eq_true rfl, of_decide_eq_true rfl, of_decide_eq_true rfl⟩
theorem Laws.Placed.divu (h : Head) (f : SReg) :
    Laws.Placed.Statement (.divu h f) := ⟨of_decide_eq_true rfl, of_decide_eq_true rfl, of_decide_eq_true rfl⟩
theorem Laws.Placed.rem (h : Head) (f : SReg) :
    Laws.Placed.Statement (.rem h f) := ⟨of_decide_eq_true rfl, of_decide_eq_true rfl, of_decide_eq_true rfl⟩
theorem Laws.Placed.remu (h : Head) (f : SReg) :
    Laws.Placed.Statement (.remu h f) := ⟨of_decide_eq_true rfl, of_decide_eq_true rfl, of_decide_eq_true rfl⟩
theorem Laws.Placed.addpc (p : Port) (h : Head) (f : SImm) :
    Laws.Placed.Statement (.addpc p h f) := by cases p <;> exact ⟨of_decide_eq_true rfl, of_decide_eq_true rfl, of_decide_eq_true rfl⟩
theorem Laws.Placed.and (p : Port) (h : Head) (f : SReg) :
    Laws.Placed.Statement (.and p h f) := by cases p <;> exact ⟨of_decide_eq_true rfl, of_decide_eq_true rfl, of_decide_eq_true rfl⟩
theorem Laws.Placed.or (p : Port) (h : Head) (f : SReg) :
    Laws.Placed.Statement (.or p h f) := by cases p <;> exact ⟨of_decide_eq_true rfl, of_decide_eq_true rfl, of_decide_eq_true rfl⟩
theorem Laws.Placed.xor (p : Port) (h : Head) (f : SReg) :
    Laws.Placed.Statement (.xor p h f) := by cases p <;> exact ⟨of_decide_eq_true rfl, of_decide_eq_true rfl, of_decide_eq_true rfl⟩
theorem Laws.Placed.andn (p : Port) (h : Head) (f : SReg) :
    Laws.Placed.Statement (.andn p h f) := by cases p <;> exact ⟨of_decide_eq_true rfl, of_decide_eq_true rfl, of_decide_eq_true rfl⟩
theorem Laws.Placed.andi (p : Port) (h : Head) (f : SImm) :
    Laws.Placed.Statement (.andi p h f) := by cases p <;> exact ⟨of_decide_eq_true rfl, of_decide_eq_true rfl, of_decide_eq_true rfl⟩
theorem Laws.Placed.ori (p : Port) (h : Head) (f : SImm) :
    Laws.Placed.Statement (.ori p h f) := by cases p <;> exact ⟨of_decide_eq_true rfl, of_decide_eq_true rfl, of_decide_eq_true rfl⟩
theorem Laws.Placed.xori (p : Port) (h : Head) (f : SImm) :
    Laws.Placed.Statement (.xori p h f) := by cases p <;> exact ⟨of_decide_eq_true rfl, of_decide_eq_true rfl, of_decide_eq_true rfl⟩
theorem Laws.Placed.shl (p : Port) (h : Head) (f : SReg) :
    Laws.Placed.Statement (.shl p h f) := by cases p <;> exact ⟨of_decide_eq_true rfl, of_decide_eq_true rfl, of_decide_eq_true rfl⟩
theorem Laws.Placed.shr (p : Port) (h : Head) (f : SReg) :
    Laws.Placed.Statement (.shr p h f) := by cases p <;> exact ⟨of_decide_eq_true rfl, of_decide_eq_true rfl, of_decide_eq_true rfl⟩
theorem Laws.Placed.sar (p : Port) (h : Head) (f : SReg) :
    Laws.Placed.Statement (.sar p h f) := by cases p <;> exact ⟨of_decide_eq_true rfl, of_decide_eq_true rfl, of_decide_eq_true rfl⟩
theorem Laws.Placed.shli (p : Port) (h : Head) (f : SImm) :
    Laws.Placed.Statement (.shli p h f) := by cases p <;> exact ⟨of_decide_eq_true rfl, of_decide_eq_true rfl, of_decide_eq_true rfl⟩
theorem Laws.Placed.shri (p : Port) (h : Head) (f : SImm) :
    Laws.Placed.Statement (.shri p h f) := by cases p <;> exact ⟨of_decide_eq_true rfl, of_decide_eq_true rfl, of_decide_eq_true rfl⟩
theorem Laws.Placed.sari (p : Port) (h : Head) (f : SImm) :
    Laws.Placed.Statement (.sari p h f) := by cases p <;> exact ⟨of_decide_eq_true rfl, of_decide_eq_true rfl, of_decide_eq_true rfl⟩
theorem Laws.Placed.fshl (p : Port) (h : Head) (f : SReg) :
    Laws.Placed.Statement (.fshl p h f) := by cases p <;> exact ⟨of_decide_eq_true rfl, of_decide_eq_true rfl, of_decide_eq_true rfl⟩
theorem Laws.Placed.fshr (p : Port) (h : Head) (f : SReg) :
    Laws.Placed.Statement (.fshr p h f) := by cases p <;> exact ⟨of_decide_eq_true rfl, of_decide_eq_true rfl, of_decide_eq_true rfl⟩
theorem Laws.Placed.cmp (p : Port) (h : Head) (f : SReg) :
    Laws.Placed.Statement (.cmp p h f) := by cases p <;> exact ⟨of_decide_eq_true rfl, of_decide_eq_true rfl, of_decide_eq_true rfl⟩
theorem Laws.Placed.cmpi (p : Port) (h : Head) (f : SImm) :
    Laws.Placed.Statement (.cmpi p h f) := by cases p <;> exact ⟨of_decide_eq_true rfl, of_decide_eq_true rfl, of_decide_eq_true rfl⟩
theorem Laws.Placed.sel (p : Port) (h : Head) (f : SReg) :
    Laws.Placed.Statement (.sel p h f) := by cases p <;> exact ⟨of_decide_eq_true rfl, of_decide_eq_true rfl, of_decide_eq_true rfl⟩
theorem Laws.Placed.min (p : Port) (h : Head) (f : SReg) :
    Laws.Placed.Statement (.min p h f) := by cases p <;> exact ⟨of_decide_eq_true rfl, of_decide_eq_true rfl, of_decide_eq_true rfl⟩
theorem Laws.Placed.max (p : Port) (h : Head) (f : SReg) :
    Laws.Placed.Statement (.max p h f) := by cases p <;> exact ⟨of_decide_eq_true rfl, of_decide_eq_true rfl, of_decide_eq_true rfl⟩
theorem Laws.Placed.minu (p : Port) (h : Head) (f : SReg) :
    Laws.Placed.Statement (.minu p h f) := by cases p <;> exact ⟨of_decide_eq_true rfl, of_decide_eq_true rfl, of_decide_eq_true rfl⟩
theorem Laws.Placed.maxu (p : Port) (h : Head) (f : SReg) :
    Laws.Placed.Statement (.maxu p h f) := by cases p <;> exact ⟨of_decide_eq_true rfl, of_decide_eq_true rfl, of_decide_eq_true rfl⟩
theorem Laws.Placed.bfx (p : Port) (h : Head) (f : SReg) :
    Laws.Placed.Statement (.bfx p h f) := by cases p <;> exact ⟨of_decide_eq_true rfl, of_decide_eq_true rfl, of_decide_eq_true rfl⟩
theorem Laws.Placed.bfxu (p : Port) (h : Head) (f : SReg) :
    Laws.Placed.Statement (.bfxu p h f) := by cases p <;> exact ⟨of_decide_eq_true rfl, of_decide_eq_true rfl, of_decide_eq_true rfl⟩
theorem Laws.Placed.bfi (p : Port) (h : Head) (f : SReg) :
    Laws.Placed.Statement (.bfi p h f) := by cases p <;> exact ⟨of_decide_eq_true rfl, of_decide_eq_true rfl, of_decide_eq_true rfl⟩
theorem Laws.Placed.clz (p : Port) (h : Head) (f : SReg) :
    Laws.Placed.Statement (.clz p h f) := by cases p <;> exact ⟨of_decide_eq_true rfl, of_decide_eq_true rfl, of_decide_eq_true rfl⟩
theorem Laws.Placed.ctz (p : Port) (h : Head) (f : SReg) :
    Laws.Placed.Statement (.ctz p h f) := by cases p <;> exact ⟨of_decide_eq_true rfl, of_decide_eq_true rfl, of_decide_eq_true rfl⟩
theorem Laws.Placed.popc (p : Port) (h : Head) (f : SReg) :
    Laws.Placed.Statement (.popc p h f) := by cases p <;> exact ⟨of_decide_eq_true rfl, of_decide_eq_true rfl, of_decide_eq_true rfl⟩
theorem Laws.Placed.brev (p : Port) (h : Head) (f : SReg) :
    Laws.Placed.Statement (.brev p h f) := by cases p <;> exact ⟨of_decide_eq_true rfl, of_decide_eq_true rfl, of_decide_eq_true rfl⟩
theorem Laws.Placed.bswap (p : Port) (h : Head) (f : SReg) :
    Laws.Placed.Statement (.bswap p h f) := by cases p <;> exact ⟨of_decide_eq_true rfl, of_decide_eq_true rfl, of_decide_eq_true rfl⟩
theorem Laws.Placed.li (p : Port) (h : Head) (f : SLong) :
    Laws.Placed.Statement (.li p h f) := by cases p <;> exact ⟨of_decide_eq_true rfl, of_decide_eq_true rfl, of_decide_eq_true rfl⟩
theorem Laws.Placed.lih (p : Port) (h : Head) (f : SLong) :
    Laws.Placed.Statement (.lih p h f) := by cases p <;> exact ⟨of_decide_eq_true rfl, of_decide_eq_true rfl, of_decide_eq_true rfl⟩
theorem Laws.Placed.phash (h : Head) (f : SReg) :
    Laws.Placed.Statement (.phash h f) := ⟨of_decide_eq_true rfl, of_decide_eq_true rfl, of_decide_eq_true rfl⟩
theorem Laws.Placed.pbr (h : Head) (f : Xfr) :
    Laws.Placed.Statement (.pbr h f) := ⟨of_decide_eq_true rfl, of_decide_eq_true rfl, of_decide_eq_true rfl⟩
theorem Laws.Placed.pbrr (h : Head) (f : SReg) :
    Laws.Placed.Statement (.pbrr h f) := ⟨of_decide_eq_true rfl, of_decide_eq_true rfl, of_decide_eq_true rfl⟩
theorem Laws.Placed.xfer (h : Head) (f : Xfr) :
    Laws.Placed.Statement (.xfer h f) := ⟨of_decide_eq_true rfl, of_decide_eq_true rfl, of_decide_eq_true rfl⟩
theorem Laws.Placed.xferl (h : Head) (f : Xfr) :
    Laws.Placed.Statement (.xferl h f) := ⟨of_decide_eq_true rfl, of_decide_eq_true rfl, of_decide_eq_true rfl⟩
theorem Laws.Placed.loop (h : Head) (f : SReg) :
    Laws.Placed.Statement (.loop h f) := ⟨of_decide_eq_true rfl, of_decide_eq_true rfl, of_decide_eq_true rfl⟩
theorem Laws.Placed.loopi (h : Head) (f : SReg) :
    Laws.Placed.Statement (.loopi h f) := ⟨of_decide_eq_true rfl, of_decide_eq_true rfl, of_decide_eq_true rfl⟩
theorem Laws.Placed.breakLoop (h : Head) (f : SReg) :
    Laws.Placed.Statement (.breakLoop h f) := ⟨of_decide_eq_true rfl, of_decide_eq_true rfl, of_decide_eq_true rfl⟩
theorem Laws.Placed.vany (h : Head) (f : SReg) :
    Laws.Placed.Statement (.vany h f) := ⟨of_decide_eq_true rfl, of_decide_eq_true rfl, of_decide_eq_true rfl⟩
theorem Laws.Placed.vall (h : Head) (f : SReg) :
    Laws.Placed.Statement (.vall h f) := ⟨of_decide_eq_true rfl, of_decide_eq_true rfl, of_decide_eq_true rfl⟩
theorem Laws.Placed.fop (h : Head) (f : SReg) :
    Laws.Placed.Statement (.fop h f) := ⟨of_decide_eq_true rfl, of_decide_eq_true rfl, of_decide_eq_true rfl⟩
theorem Laws.Placed.wfe (h : Head) (f : SReg) :
    Laws.Placed.Statement (.wfe h f) := ⟨of_decide_eq_true rfl, of_decide_eq_true rfl, of_decide_eq_true rfl⟩
theorem Laws.Placed.sev (h : Head) (f : SReg) :
    Laws.Placed.Statement (.sev h f) := ⟨of_decide_eq_true rfl, of_decide_eq_true rfl, of_decide_eq_true rfl⟩
theorem Laws.Placed.tend (h : Head) (f : SReg) :
    Laws.Placed.Statement (.tend h f) := ⟨of_decide_eq_true rfl, of_decide_eq_true rfl, of_decide_eq_true rfl⟩
theorem Laws.Placed.amov (h : Head) (f : AGen) :
    Laws.Placed.Statement (.amov h f) := ⟨of_decide_eq_true rfl, of_decide_eq_true rfl, of_decide_eq_true rfl⟩
theorem Laws.Placed.aadd (h : Head) (f : AGen) :
    Laws.Placed.Statement (.aadd h f) := ⟨of_decide_eq_true rfl, of_decide_eq_true rfl, of_decide_eq_true rfl⟩
theorem Laws.Placed.aaddi (h : Head) (f : AGen) :
    Laws.Placed.Statement (.aaddi h f) := ⟨of_decide_eq_true rfl, of_decide_eq_true rfl, of_decide_eq_true rfl⟩
theorem Laws.Placed.acfg (h : Head) (f : AGen) :
    Laws.Placed.Statement (.acfg h f) := ⟨of_decide_eq_true rfl, of_decide_eq_true rfl, of_decide_eq_true rfl⟩
theorem Laws.Placed.aind (h : Head) (f : AGen) :
    Laws.Placed.Statement (.aind h f) := ⟨of_decide_eq_true rfl, of_decide_eq_true rfl, of_decide_eq_true rfl⟩
theorem Laws.Placed.arun (h : Head) (f : AGen) :
    Laws.Placed.Statement (.arun h f) := ⟨of_decide_eq_true rfl, of_decide_eq_true rfl, of_decide_eq_true rfl⟩
theorem Laws.Placed.astop (h : Head) (f : AGen) :
    Laws.Placed.Statement (.astop h f) := ⟨of_decide_eq_true rfl, of_decide_eq_true rfl, of_decide_eq_true rfl⟩
theorem Laws.Placed.generatorStep (a : Agent) :
    Laws.Placed.Statement (.generatorStep a) := rfl
theorem Laws.Placed.vadd (h : Head) (f : VecF) :
    Laws.Placed.Statement (.vadd h f) := ⟨of_decide_eq_true rfl, of_decide_eq_true rfl, of_decide_eq_true rfl⟩
theorem Laws.Placed.vsub (h : Head) (f : VecF) :
    Laws.Placed.Statement (.vsub h f) := ⟨of_decide_eq_true rfl, of_decide_eq_true rfl, of_decide_eq_true rfl⟩
theorem Laws.Placed.vmul (h : Head) (f : VecF) :
    Laws.Placed.Statement (.vmul h f) := ⟨of_decide_eq_true rfl, of_decide_eq_true rfl, of_decide_eq_true rfl⟩
theorem Laws.Placed.vfma (h : Head) (f : VecF) :
    Laws.Placed.Statement (.vfma h f) := ⟨of_decide_eq_true rfl, of_decide_eq_true rfl, of_decide_eq_true rfl⟩
theorem Laws.Placed.vmin (h : Head) (f : VecF) :
    Laws.Placed.Statement (.vmin h f) := ⟨of_decide_eq_true rfl, of_decide_eq_true rfl, of_decide_eq_true rfl⟩
theorem Laws.Placed.vmax (h : Head) (f : VecF) :
    Laws.Placed.Statement (.vmax h f) := ⟨of_decide_eq_true rfl, of_decide_eq_true rfl, of_decide_eq_true rfl⟩
theorem Laws.Placed.vabs (h : Head) (f : VecF) :
    Laws.Placed.Statement (.vabs h f) := ⟨of_decide_eq_true rfl, of_decide_eq_true rfl, of_decide_eq_true rfl⟩
theorem Laws.Placed.vneg (h : Head) (f : VecF) :
    Laws.Placed.Statement (.vneg h f) := ⟨of_decide_eq_true rfl, of_decide_eq_true rfl, of_decide_eq_true rfl⟩
theorem Laws.Placed.vadds (h : Head) (f : VecF) :
    Laws.Placed.Statement (.vadds h f) := ⟨of_decide_eq_true rfl, of_decide_eq_true rfl, of_decide_eq_true rfl⟩
theorem Laws.Placed.vsubs (h : Head) (f : VecF) :
    Laws.Placed.Statement (.vsubs h f) := ⟨of_decide_eq_true rfl, of_decide_eq_true rfl, of_decide_eq_true rfl⟩
theorem Laws.Placed.vmulh (h : Head) (f : VecF) :
    Laws.Placed.Statement (.vmulh h f) := ⟨of_decide_eq_true rfl, of_decide_eq_true rfl, of_decide_eq_true rfl⟩
theorem Laws.Placed.vand (h : Head) (f : VecF) :
    Laws.Placed.Statement (.vand h f) := ⟨of_decide_eq_true rfl, of_decide_eq_true rfl, of_decide_eq_true rfl⟩
theorem Laws.Placed.vor (h : Head) (f : VecF) :
    Laws.Placed.Statement (.vor h f) := ⟨of_decide_eq_true rfl, of_decide_eq_true rfl, of_decide_eq_true rfl⟩
theorem Laws.Placed.vxor (h : Head) (f : VecF) :
    Laws.Placed.Statement (.vxor h f) := ⟨of_decide_eq_true rfl, of_decide_eq_true rfl, of_decide_eq_true rfl⟩
theorem Laws.Placed.vandn (h : Head) (f : VecF) :
    Laws.Placed.Statement (.vandn h f) := ⟨of_decide_eq_true rfl, of_decide_eq_true rfl, of_decide_eq_true rfl⟩
theorem Laws.Placed.vshl (h : Head) (f : VecF) :
    Laws.Placed.Statement (.vshl h f) := ⟨of_decide_eq_true rfl, of_decide_eq_true rfl, of_decide_eq_true rfl⟩
theorem Laws.Placed.vshr (h : Head) (f : VecF) :
    Laws.Placed.Statement (.vshr h f) := ⟨of_decide_eq_true rfl, of_decide_eq_true rfl, of_decide_eq_true rfl⟩
theorem Laws.Placed.vsar (h : Head) (f : VecF) :
    Laws.Placed.Statement (.vsar h f) := ⟨of_decide_eq_true rfl, of_decide_eq_true rfl, of_decide_eq_true rfl⟩
theorem Laws.Placed.vpopc (h : Head) (f : VecF) :
    Laws.Placed.Statement (.vpopc h f) := ⟨of_decide_eq_true rfl, of_decide_eq_true rfl, of_decide_eq_true rfl⟩
theorem Laws.Placed.vcvt (h : Head) (f : VecF) :
    Laws.Placed.Statement (.vcvt h f) := ⟨of_decide_eq_true rfl, of_decide_eq_true rfl, of_decide_eq_true rfl⟩
theorem Laws.Placed.vpack (h : Head) (f : VecF) :
    Laws.Placed.Statement (.vpack h f) := ⟨of_decide_eq_true rfl, of_decide_eq_true rfl, of_decide_eq_true rfl⟩
theorem Laws.Placed.vunpk (h : Head) (f : VecF) :
    Laws.Placed.Statement (.vunpk h f) := ⟨of_decide_eq_true rfl, of_decide_eq_true rfl, of_decide_eq_true rfl⟩
theorem Laws.Placed.vrsum (h : Head) (f : VecF) :
    Laws.Placed.Statement (.vrsum h f) := ⟨of_decide_eq_true rfl, of_decide_eq_true rfl, of_decide_eq_true rfl⟩
theorem Laws.Placed.vrmax (h : Head) (f : VecF) :
    Laws.Placed.Statement (.vrmax h f) := ⟨of_decide_eq_true rfl, of_decide_eq_true rfl, of_decide_eq_true rfl⟩
theorem Laws.Placed.vrmin (h : Head) (f : VecF) :
    Laws.Placed.Statement (.vrmin h f) := ⟨of_decide_eq_true rfl, of_decide_eq_true rfl, of_decide_eq_true rfl⟩
theorem Laws.Placed.vrand (h : Head) (f : VecF) :
    Laws.Placed.Statement (.vrand h f) := ⟨of_decide_eq_true rfl, of_decide_eq_true rfl, of_decide_eq_true rfl⟩
theorem Laws.Placed.vror (h : Head) (f : VecF) :
    Laws.Placed.Statement (.vror h f) := ⟨of_decide_eq_true rfl, of_decide_eq_true rfl, of_decide_eq_true rfl⟩
theorem Laws.Placed.vcmp (h : Head) (f : VecF) :
    Laws.Placed.Statement (.vcmp h f) := ⟨of_decide_eq_true rfl, of_decide_eq_true rfl, of_decide_eq_true rfl⟩
theorem Laws.Placed.vqand (h : Head) (f : VecF) :
    Laws.Placed.Statement (.vqand h f) := ⟨of_decide_eq_true rfl, of_decide_eq_true rfl, of_decide_eq_true rfl⟩
theorem Laws.Placed.vqor (h : Head) (f : VecF) :
    Laws.Placed.Statement (.vqor h f) := ⟨of_decide_eq_true rfl, of_decide_eq_true rfl, of_decide_eq_true rfl⟩
theorem Laws.Placed.vqnot (h : Head) (f : VecF) :
    Laws.Placed.Statement (.vqnot h f) := ⟨of_decide_eq_true rfl, of_decide_eq_true rfl, of_decide_eq_true rfl⟩
theorem Laws.Placed.vsel (h : Head) (f : VecF) :
    Laws.Placed.Statement (.vsel h f) := ⟨of_decide_eq_true rfl, of_decide_eq_true rfl, of_decide_eq_true rfl⟩
theorem Laws.Placed.vperm (h : Head) (f : VecF) :
    Laws.Placed.Statement (.vperm h f) := ⟨of_decide_eq_true rfl, of_decide_eq_true rfl, of_decide_eq_true rfl⟩
theorem Laws.Placed.vbcast (h : Head) (f : VecF) :
    Laws.Placed.Statement (.vbcast h f) := ⟨of_decide_eq_true rfl, of_decide_eq_true rfl, of_decide_eq_true rfl⟩
theorem Laws.Placed.vbcastLn (h : Head) (f : VecF) :
    Laws.Placed.Statement (.vbcastLn h f) := ⟨of_decide_eq_true rfl, of_decide_eq_true rfl, of_decide_eq_true rfl⟩
theorem Laws.Placed.vmov (h : Head) (f : VecF) :
    Laws.Placed.Statement (.vmov h f) := ⟨of_decide_eq_true rfl, of_decide_eq_true rfl, of_decide_eq_true rfl⟩
theorem Laws.Placed.vins (h : Head) (f : VecF) :
    Laws.Placed.Statement (.vins h f) := ⟨of_decide_eq_true rfl, of_decide_eq_true rfl, of_decide_eq_true rfl⟩
theorem Laws.Placed.vext (h : Head) (f : VecF) :
    Laws.Placed.Statement (.vext h f) := ⟨of_decide_eq_true rfl, of_decide_eq_true rfl, of_decide_eq_true rfl⟩
theorem Laws.Placed.vzps (h : Head) (f : VecF) :
    Laws.Placed.Statement (.vzps h f) := ⟨of_decide_eq_true rfl, of_decide_eq_true rfl, of_decide_eq_true rfl⟩
theorem Laws.Placed.vplx (h : Head) (f : VecF) :
    Laws.Placed.Statement (.vplx h f) := ⟨of_decide_eq_true rfl, of_decide_eq_true rfl, of_decide_eq_true rfl⟩
theorem Laws.Placed.vpli (h : Head) (f : VecF) :
    Laws.Placed.Statement (.vpli h f) := ⟨of_decide_eq_true rfl, of_decide_eq_true rfl, of_decide_eq_true rfl⟩
theorem Laws.Placed.vexp2 (h : Head) (f : VecF) :
    Laws.Placed.Statement (.vexp2 h f) := ⟨of_decide_eq_true rfl, of_decide_eq_true rfl, of_decide_eq_true rfl⟩
theorem Laws.Placed.vrcp (h : Head) (f : VecF) :
    Laws.Placed.Statement (.vrcp h f) := ⟨of_decide_eq_true rfl, of_decide_eq_true rfl, of_decide_eq_true rfl⟩
theorem Laws.Placed.vmrg (h : Head) (f : VecF) :
    Laws.Placed.Statement (.vmrg h f) := ⟨of_decide_eq_true rfl, of_decide_eq_true rfl, of_decide_eq_true rfl⟩
theorem Laws.Placed.gidx (h : Head) (f : VecF) :
    Laws.Placed.Statement (.gidx h f) := ⟨of_decide_eq_true rfl, of_decide_eq_true rfl, of_decide_eq_true rfl⟩
theorem Laws.Placed.gath (h : Head) (f : VecF) :
    Laws.Placed.Statement (.gath h f) := ⟨of_decide_eq_true rfl, of_decide_eq_true rfl, of_decide_eq_true rfl⟩
theorem Laws.Placed.mcfg (h : Head) (f : MatF) :
    Laws.Placed.Statement (.mcfg h f) := ⟨of_decide_eq_true rfl, of_decide_eq_true rfl, of_decide_eq_true rfl⟩
theorem Laws.Placed.busEpochStart (t : BitVec 3) (layer : BitVec 1) (cluster : BitVec 3) :
    Laws.Placed.Statement (.busEpochStart t layer cluster) := rfl
theorem Laws.Placed.mzero (h : Head) (f : MatF) :
    Laws.Placed.Statement (.mzero h f) := ⟨of_decide_eq_true rfl, of_decide_eq_true rfl, of_decide_eq_true rfl⟩
theorem Laws.Placed.mpush (h : Head) (f : MatF) :
    Laws.Placed.Statement (.mpush h f) := ⟨of_decide_eq_true rfl, of_decide_eq_true rfl, of_decide_eq_true rfl⟩
theorem Laws.Placed.mshf (h : Head) (f : MatF) :
    Laws.Placed.Statement (.mshf h f) := ⟨of_decide_eq_true rfl, of_decide_eq_true rfl, of_decide_eq_true rfl⟩
theorem Laws.Placed.macc (h : Head) (f : MatF) :
    Laws.Placed.Statement (.macc h f) := ⟨of_decide_eq_true rfl, of_decide_eq_true rfl, of_decide_eq_true rfl⟩
theorem Laws.Placed.macch (h : Head) (f : MatF) :
    Laws.Placed.Statement (.macch h f) := ⟨of_decide_eq_true rfl, of_decide_eq_true rfl, of_decide_eq_true rfl⟩
theorem Laws.Placed.mdrn (h : Head) (f : MatF) :
    Laws.Placed.Statement (.mdrn h f) := ⟨of_decide_eq_true rfl, of_decide_eq_true rfl, of_decide_eq_true rfl⟩
theorem Laws.Placed.grantWindow (t : BitVec 3) (cluster : BitVec 3) (col : BitVec 2) :
    Laws.Placed.Statement (.grantWindow t cluster col) := rfl
theorem Laws.Placed.ld (h : Head) (f : MemF) :
    Laws.Placed.Statement (.ld h f) := ⟨of_decide_eq_true rfl, of_decide_eq_true rfl, of_decide_eq_true rfl⟩
theorem Laws.Placed.ldz (h : Head) (f : MemF) :
    Laws.Placed.Statement (.ldz h f) := ⟨of_decide_eq_true rfl, of_decide_eq_true rfl, of_decide_eq_true rfl⟩
theorem Laws.Placed.st (h : Head) (f : MemF) :
    Laws.Placed.Statement (.st h f) := ⟨of_decide_eq_true rfl, of_decide_eq_true rfl, of_decide_eq_true rfl⟩
theorem Laws.Placed.vld (h : Head) (f : MemF) :
    Laws.Placed.Statement (.vld h f) := ⟨of_decide_eq_true rfl, of_decide_eq_true rfl, of_decide_eq_true rfl⟩
theorem Laws.Placed.vst (h : Head) (f : MemF) :
    Laws.Placed.Statement (.vst h f) := ⟨of_decide_eq_true rfl, of_decide_eq_true rfl, of_decide_eq_true rfl⟩
theorem Laws.Placed.tld (h : Head) (f : MemF) :
    Laws.Placed.Statement (.tld h f) := ⟨of_decide_eq_true rfl, of_decide_eq_true rfl, of_decide_eq_true rfl⟩
theorem Laws.Placed.tst (h : Head) (f : MemF) :
    Laws.Placed.Statement (.tst h f) := ⟨of_decide_eq_true rfl, of_decide_eq_true rfl, of_decide_eq_true rfl⟩
theorem Laws.Placed.amo (h : Head) (f : MemF) :
    Laws.Placed.Statement (.amo h f) := ⟨of_decide_eq_true rfl, of_decide_eq_true rfl, of_decide_eq_true rfl⟩
theorem Laws.Placed.cas (h : Head) (f : MemF) :
    Laws.Placed.Statement (.cas h f) := ⟨of_decide_eq_true rfl, of_decide_eq_true rfl, of_decide_eq_true rfl⟩
theorem Laws.Placed.mark (h : Head) (f : MemF) :
    Laws.Placed.Statement (.mark h f) := ⟨of_decide_eq_true rfl, of_decide_eq_true rfl, of_decide_eq_true rfl⟩
theorem Laws.Placed.gld (h : Head) (f : MemF) :
    Laws.Placed.Statement (.gld h f) := ⟨of_decide_eq_true rfl, of_decide_eq_true rfl, of_decide_eq_true rfl⟩
theorem Laws.Placed.gldz (h : Head) (f : MemF) :
    Laws.Placed.Statement (.gldz h f) := ⟨of_decide_eq_true rfl, of_decide_eq_true rfl, of_decide_eq_true rfl⟩
theorem Laws.Placed.gst (h : Head) (f : MemF) :
    Laws.Placed.Statement (.gst h f) := ⟨of_decide_eq_true rfl, of_decide_eq_true rfl, of_decide_eq_true rfl⟩
theorem Laws.Placed.gvld (h : Head) (f : MemF) :
    Laws.Placed.Statement (.gvld h f) := ⟨of_decide_eq_true rfl, of_decide_eq_true rfl, of_decide_eq_true rfl⟩
theorem Laws.Placed.gvst (h : Head) (f : MemF) :
    Laws.Placed.Statement (.gvst h f) := ⟨of_decide_eq_true rfl, of_decide_eq_true rfl, of_decide_eq_true rfl⟩
theorem Laws.Placed.gtld (h : Head) (f : MemF) :
    Laws.Placed.Statement (.gtld h f) := ⟨of_decide_eq_true rfl, of_decide_eq_true rfl, of_decide_eq_true rfl⟩
theorem Laws.Placed.gtst (h : Head) (f : MemF) :
    Laws.Placed.Statement (.gtst h f) := ⟨of_decide_eq_true rfl, of_decide_eq_true rfl, of_decide_eq_true rfl⟩
theorem Laws.Placed.gamo (h : Head) (f : MemF) :
    Laws.Placed.Statement (.gamo h f) := ⟨of_decide_eq_true rfl, of_decide_eq_true rfl, of_decide_eq_true rfl⟩
theorem Laws.Placed.gcas (h : Head) (f : MemF) :
    Laws.Placed.Statement (.gcas h f) := ⟨of_decide_eq_true rfl, of_decide_eq_true rfl, of_decide_eq_true rfl⟩
theorem Laws.Placed.gmark (h : Head) (f : MemF) :
    Laws.Placed.Statement (.gmark h f) := ⟨of_decide_eq_true rfl, of_decide_eq_true rfl, of_decide_eq_true rfl⟩
theorem Laws.Placed.wld (h : Head) (f : MemF) :
    Laws.Placed.Statement (.wld h f) := ⟨of_decide_eq_true rfl, of_decide_eq_true rfl, of_decide_eq_true rfl⟩
theorem Laws.Placed.wldz (h : Head) (f : MemF) :
    Laws.Placed.Statement (.wldz h f) := ⟨of_decide_eq_true rfl, of_decide_eq_true rfl, of_decide_eq_true rfl⟩
theorem Laws.Placed.wst (h : Head) (f : MemF) :
    Laws.Placed.Statement (.wst h f) := ⟨of_decide_eq_true rfl, of_decide_eq_true rfl, of_decide_eq_true rfl⟩
theorem Laws.Placed.wvld (h : Head) (f : MemF) :
    Laws.Placed.Statement (.wvld h f) := ⟨of_decide_eq_true rfl, of_decide_eq_true rfl, of_decide_eq_true rfl⟩
theorem Laws.Placed.wvst (h : Head) (f : MemF) :
    Laws.Placed.Statement (.wvst h f) := ⟨of_decide_eq_true rfl, of_decide_eq_true rfl, of_decide_eq_true rfl⟩
theorem Laws.Placed.wtld (h : Head) (f : MemF) :
    Laws.Placed.Statement (.wtld h f) := ⟨of_decide_eq_true rfl, of_decide_eq_true rfl, of_decide_eq_true rfl⟩
theorem Laws.Placed.wtst (h : Head) (f : MemF) :
    Laws.Placed.Statement (.wtst h f) := ⟨of_decide_eq_true rfl, of_decide_eq_true rfl, of_decide_eq_true rfl⟩
theorem Laws.Placed.wamo (h : Head) (f : MemF) :
    Laws.Placed.Statement (.wamo h f) := ⟨of_decide_eq_true rfl, of_decide_eq_true rfl, of_decide_eq_true rfl⟩
theorem Laws.Placed.wcas (h : Head) (f : MemF) :
    Laws.Placed.Statement (.wcas h f) := ⟨of_decide_eq_true rfl, of_decide_eq_true rfl, of_decide_eq_true rfl⟩
theorem Laws.Placed.wmark (h : Head) (f : MemF) :
    Laws.Placed.Statement (.wmark h f) := ⟨of_decide_eq_true rfl, of_decide_eq_true rfl, of_decide_eq_true rfl⟩
theorem Laws.Placed.bld (h : Head) (f : MemF) :
    Laws.Placed.Statement (.bld h f) := ⟨of_decide_eq_true rfl, of_decide_eq_true rfl, of_decide_eq_true rfl⟩
theorem Laws.Placed.xlate (h : Head) (f : MemF) :
    Laws.Placed.Statement (.xlate h f) := ⟨of_decide_eq_true rfl, of_decide_eq_true rfl, of_decide_eq_true rfl⟩
theorem Laws.Placed.fence (h : Head) (f : SysF) :
    Laws.Placed.Statement (.fence h f) := ⟨of_decide_eq_true rfl, of_decide_eq_true rfl, of_decide_eq_true rfl⟩
theorem Laws.Placed.cpy (h : Head) (f : CmdF) :
    Laws.Placed.Statement (.cpy h f) := ⟨of_decide_eq_true rfl, of_decide_eq_true rfl, of_decide_eq_true rfl⟩
theorem Laws.Placed.cpyt (h : Head) (f : CmdF) :
    Laws.Placed.Statement (.cpyt h f) := ⟨of_decide_eq_true rfl, of_decide_eq_true rfl, of_decide_eq_true rfl⟩
theorem Laws.Placed.copyIssue (job : Nat) :
    Laws.Placed.Statement (.copyIssue job) := rfl
theorem Laws.Placed.chunkLand (job chunk : Nat) (err : DataError) :
    Laws.Placed.Statement (.chunkLand job chunk err) := rfl
theorem Laws.Placed.waitc (h : Head) (f : CmdF) :
    Laws.Placed.Statement (.waitc h f) := ⟨of_decide_eq_true rfl, of_decide_eq_true rfl, of_decide_eq_true rfl⟩
theorem Laws.Placed.pxfer (h : Head) (f : CmdF) :
    Laws.Placed.Statement (.pxfer h f) := ⟨of_decide_eq_true rfl, of_decide_eq_true rfl, of_decide_eq_true rfl⟩
theorem Laws.Placed.peerChunkReceive (link : BitVec 4) (adr : BitVec 32) (bytes : List (BitVec 8)) (flag : Bool) :
    Laws.Placed.Statement (.peerChunkReceive link adr bytes flag) := rfl
theorem Laws.Placed.sqopen (h : Head) (f : CmdF) :
    Laws.Placed.Statement (.sqopen h f) := ⟨of_decide_eq_true rfl, of_decide_eq_true rfl, of_decide_eq_true rfl⟩
theorem Laws.Placed.sqclose (h : Head) (f : CmdF) :
    Laws.Placed.Statement (.sqclose h f) := ⟨of_decide_eq_true rfl, of_decide_eq_true rfl, of_decide_eq_true rfl⟩
theorem Laws.Placed.sqnode (h : Head) (f : CmdF) :
    Laws.Placed.Statement (.sqnode h f) := ⟨of_decide_eq_true rfl, of_decide_eq_true rfl, of_decide_eq_true rfl⟩
theorem Laws.Placed.sqchk (h : Head) (f : CmdF) :
    Laws.Placed.Statement (.sqchk h f) := ⟨of_decide_eq_true rfl, of_decide_eq_true rfl, of_decide_eq_true rfl⟩
theorem Laws.Placed.sqacc (h : Head) (f : CmdF) :
    Laws.Placed.Statement (.sqacc h f) := ⟨of_decide_eq_true rfl, of_decide_eq_true rfl, of_decide_eq_true rfl⟩
theorem Laws.Placed.sqaccAssistComplete (h : Head) (f : CmdF) :
    Laws.Placed.Statement (.sqaccAssistComplete h f) := ⟨of_decide_eq_true rfl, of_decide_eq_true rfl, of_decide_eq_true rfl⟩
theorem Laws.Placed.sqsave (h : Head) (f : CmdF) :
    Laws.Placed.Statement (.sqsave h f) := ⟨of_decide_eq_true rfl, of_decide_eq_true rfl, of_decide_eq_true rfl⟩
theorem Laws.Placed.sqrst (h : Head) (f : CmdF) :
    Laws.Placed.Statement (.sqrst h f) := ⟨of_decide_eq_true rfl, of_decide_eq_true rfl, of_decide_eq_true rfl⟩
theorem Laws.Placed.kvgrow (h : Head) (f : CmdF) :
    Laws.Placed.Statement (.kvgrow h f) := ⟨of_decide_eq_true rfl, of_decide_eq_true rfl, of_decide_eq_true rfl⟩
theorem Laws.Placed.kvcommit (h : Head) (f : CmdF) :
    Laws.Placed.Statement (.kvcommit h f) := ⟨of_decide_eq_true rfl, of_decide_eq_true rfl, of_decide_eq_true rfl⟩
theorem Laws.Placed.kvroll (h : Head) (f : CmdF) :
    Laws.Placed.Statement (.kvroll h f) := ⟨of_decide_eq_true rfl, of_decide_eq_true rfl, of_decide_eq_true rfl⟩
theorem Laws.Placed.kvexport (h : Head) (f : CmdF) :
    Laws.Placed.Statement (.kvexport h f) := ⟨of_decide_eq_true rfl, of_decide_eq_true rfl, of_decide_eq_true rfl⟩
theorem Laws.Placed.kvpoolEnable (h : Head) (f : CmdF) :
    Laws.Placed.Statement (.kvpoolEnable h f) := ⟨of_decide_eq_true rfl, of_decide_eq_true rfl, of_decide_eq_true rfl⟩
theorem Laws.Placed.kvpoolDisable (h : Head) (f : CmdF) :
    Laws.Placed.Statement (.kvpoolDisable h f) := ⟨of_decide_eq_true rfl, of_decide_eq_true rfl, of_decide_eq_true rfl⟩
theorem Laws.Placed.kvpoolPin (h : Head) (f : CmdF) :
    Laws.Placed.Statement (.kvpoolPin h f) := ⟨of_decide_eq_true rfl, of_decide_eq_true rfl, of_decide_eq_true rfl⟩
theorem Laws.Placed.kvpoolUnpin (h : Head) (f : CmdF) :
    Laws.Placed.Statement (.kvpoolUnpin h f) := ⟨of_decide_eq_true rfl, of_decide_eq_true rfl, of_decide_eq_true rfl⟩
theorem Laws.Placed.kvpoolSetent (h : Head) (f : CmdF) :
    Laws.Placed.Statement (.kvpoolSetent h f) := ⟨of_decide_eq_true rfl, of_decide_eq_true rfl, of_decide_eq_true rfl⟩
theorem Laws.Placed.kvpoolAlloc (h : Head) (f : CmdF) :
    Laws.Placed.Statement (.kvpoolAlloc h f) := ⟨of_decide_eq_true rfl, of_decide_eq_true rfl, of_decide_eq_true rfl⟩
theorem Laws.Placed.kvpoolFree (h : Head) (f : CmdF) :
    Laws.Placed.Statement (.kvpoolFree h f) := ⟨of_decide_eq_true rfl, of_decide_eq_true rfl, of_decide_eq_true rfl⟩
theorem Laws.Placed.pfxlook (h : Head) (f : CmdF) :
    Laws.Placed.Statement (.pfxlook h f) := ⟨of_decide_eq_true rfl, of_decide_eq_true rfl, of_decide_eq_true rfl⟩
theorem Laws.Placed.pfxins (h : Head) (f : CmdF) :
    Laws.Placed.Statement (.pfxins h f) := ⟨of_decide_eq_true rfl, of_decide_eq_true rfl, of_decide_eq_true rfl⟩
theorem Laws.Placed.pfxinsAssistComplete (h : Head) (f : CmdF) :
    Laws.Placed.Statement (.pfxinsAssistComplete h f) := ⟨of_decide_eq_true rfl, of_decide_eq_true rfl, of_decide_eq_true rfl⟩
theorem Laws.Placed.pfxpin (h : Head) (f : CmdF) :
    Laws.Placed.Statement (.pfxpin h f) := ⟨of_decide_eq_true rfl, of_decide_eq_true rfl, of_decide_eq_true rfl⟩
theorem Laws.Placed.stcfgConfigure (h : Head) (f : CmdF) :
    Laws.Placed.Statement (.stcfgConfigure h f) := ⟨of_decide_eq_true rfl, of_decide_eq_true rfl, of_decide_eq_true rfl⟩
theorem Laws.Placed.stcfgDisable (h : Head) (f : CmdF) :
    Laws.Placed.Statement (.stcfgDisable h f) := ⟨of_decide_eq_true rfl, of_decide_eq_true rfl, of_decide_eq_true rfl⟩
theorem Laws.Placed.stcfgEvict (h : Head) (f : CmdF) :
    Laws.Placed.Statement (.stcfgEvict h f) := ⟨of_decide_eq_true rfl, of_decide_eq_true rfl, of_decide_eq_true rfl⟩
theorem Laws.Placed.stcfgRestore (h : Head) (f : CmdF) :
    Laws.Placed.Statement (.stcfgRestore h f) := ⟨of_decide_eq_true rfl, of_decide_eq_true rfl, of_decide_eq_true rfl⟩
theorem Laws.Placed.spawn (h : Head) (f : SysF) :
    Laws.Placed.Statement (.spawn h f) := ⟨of_decide_eq_true rfl, of_decide_eq_true rfl, of_decide_eq_true rfl⟩
theorem Laws.Placed.gbar (h : Head) (f : SysF) :
    Laws.Placed.Statement (.gbar h f) := ⟨of_decide_eq_true rfl, of_decide_eq_true rfl, of_decide_eq_true rfl⟩
theorem Laws.Placed.watch (h : Head) (f : SysF) :
    Laws.Placed.Statement (.watch h f) := ⟨of_decide_eq_true rfl, of_decide_eq_true rfl, of_decide_eq_true rfl⟩
theorem Laws.Placed.unwatch (h : Head) (f : SysF) :
    Laws.Placed.Statement (.unwatch h f) := ⟨of_decide_eq_true rfl, of_decide_eq_true rfl, of_decide_eq_true rfl⟩
theorem Laws.Placed.ttrel (h : Head) (f : SysF) :
    Laws.Placed.Statement (.ttrel h f) := ⟨of_decide_eq_true rfl, of_decide_eq_true rfl, of_decide_eq_true rfl⟩
theorem Laws.Placed.rdtime (h : Head) (f : SysF) :
    Laws.Placed.Statement (.rdtime h f) := ⟨of_decide_eq_true rfl, of_decide_eq_true rfl, of_decide_eq_true rfl⟩
theorem Laws.Placed.waittCyc (h : Head) (f : SysF) :
    Laws.Placed.Statement (.waittCyc h f) := ⟨of_decide_eq_true rfl, of_decide_eq_true rfl, of_decide_eq_true rfl⟩
theorem Laws.Placed.waittTick (h : Head) (f : SysF) :
    Laws.Placed.Statement (.waittTick h f) := ⟨of_decide_eq_true rfl, of_decide_eq_true rfl, of_decide_eq_true rfl⟩
theorem Laws.Placed.budset (h : Head) (f : SysF) :
    Laws.Placed.Statement (.budset h f) := ⟨of_decide_eq_true rfl, of_decide_eq_true rfl, of_decide_eq_true rfl⟩
theorem Laws.Placed.vopen (h : Head) (f : SysF) :
    Laws.Placed.Statement (.vopen h f) := ⟨of_decide_eq_true rfl, of_decide_eq_true rfl, of_decide_eq_true rfl⟩
theorem Laws.Placed.vseal (h : Head) (f : SysF) :
    Laws.Placed.Statement (.vseal h f) := ⟨of_decide_eq_true rfl, of_decide_eq_true rfl, of_decide_eq_true rfl⟩
theorem Laws.Placed.vsealPerform (id : Nat) :
    Laws.Placed.Statement (.vsealPerform id) := rfl
theorem Laws.Placed.vhold (h : Head) (f : SysF) :
    Laws.Placed.Statement (.vhold h f) := ⟨of_decide_eq_true rfl, of_decide_eq_true rfl, of_decide_eq_true rfl⟩
theorem Laws.Placed.vrel (h : Head) (f : SysF) :
    Laws.Placed.Statement (.vrel h f) := ⟨of_decide_eq_true rfl, of_decide_eq_true rfl, of_decide_eq_true rfl⟩
theorem Laws.Placed.mfsr (h : Head) (f : SysF) :
    Laws.Placed.Statement (.mfsr h f) := ⟨of_decide_eq_true rfl, of_decide_eq_true rfl, of_decide_eq_true rfl⟩
theorem Laws.Placed.mtsr (h : Head) (f : SysF) :
    Laws.Placed.Statement (.mtsr h f) := ⟨of_decide_eq_true rfl, of_decide_eq_true rfl, of_decide_eq_true rfl⟩
theorem Laws.Placed.svc (h : Head) (f : SysF) :
    Laws.Placed.Statement (.svc h f) := ⟨of_decide_eq_true rfl, of_decide_eq_true rfl, of_decide_eq_true rfl⟩
theorem Laws.Placed.eret (h : Head) (f : SysF) :
    Laws.Placed.Statement (.eret h f) := ⟨of_decide_eq_true rfl, of_decide_eq_true rfl, of_decide_eq_true rfl⟩
theorem Laws.Placed.trap (h : Head) (f : SysF) :
    Laws.Placed.Statement (.trap h f) := ⟨of_decide_eq_true rfl, of_decide_eq_true rfl, of_decide_eq_true rfl⟩
theorem Laws.Placed.csld (h : Head) (f : SysF) :
    Laws.Placed.Statement (.csld h f) := ⟨of_decide_eq_true rfl, of_decide_eq_true rfl, of_decide_eq_true rfl⟩
theorem Laws.Placed.icinv (h : Head) (f : SysF) :
    Laws.Placed.Statement (.icinv h f) := ⟨of_decide_eq_true rfl, of_decide_eq_true rfl, of_decide_eq_true rfl⟩
theorem Laws.Placed.halt (h : Head) (f : SysF) :
    Laws.Placed.Statement (.halt h f) := ⟨of_decide_eq_true rfl, of_decide_eq_true rfl, of_decide_eq_true rfl⟩
theorem Laws.Placed.mmt (h : Head) (f : SysF) :
    Laws.Placed.Statement (.mmt h f) := ⟨of_decide_eq_true rfl, of_decide_eq_true rfl, of_decide_eq_true rfl⟩
theorem Laws.Placed.matt (h : Head) (f : SysF) :
    Laws.Placed.Statement (.matt h f) := ⟨of_decide_eq_true rfl, of_decide_eq_true rfl, of_decide_eq_true rfl⟩
theorem Laws.Placed.macroBegin (t : BitVec 3) (c : BitVec 6) :
    Laws.Placed.Statement (.macroBegin t c) := rfl
theorem Laws.Placed.taskLaunch (t : BitVec 3) (k : Nat) (bank : BitVec 4) :
    Laws.Placed.Statement (.taskLaunch t k bank) := rfl
theorem Laws.Placed.pop (t : BitVec 3) (c : BitVec 6) (i j : BitVec 4) (delay : Nat) :
    Laws.Placed.Statement (.pop t c i j delay) := rfl
theorem Laws.Placed.gangBackoffExpiry (t : BitVec 3) (num : BitVec 32) :
    Laws.Placed.Statement (.gangBackoffExpiry t num) := rfl
theorem Laws.Placed.drainClaimCommit (t : BitVec 3) (cluster : BitVec 3) :
    Laws.Placed.Statement (.drainClaimCommit t cluster) := rfl
theorem Laws.Placed.preemption (t : BitVec 3) (c : BitVec 6) :
    Laws.Placed.Statement (.preemption t c) := rfl
theorem Laws.Placed.frameStart :
    Laws.Placed.Statement (.frameStart) := rfl
theorem Laws.Placed.releaseTick (t : BitVec 3) :
    Laws.Placed.Statement (.releaseTick t) := rfl
theorem Laws.Placed.streamCheckPoint (t : BitVec 3) (slot : BitVec 10) :
    Laws.Placed.Statement (.streamCheckPoint t slot) := rfl
theorem Laws.Placed.streamTick (t : BitVec 3) (slot : BitVec 10) :
    Laws.Placed.Statement (.streamTick t slot) := rfl
theorem Laws.Placed.watchTrigger (t : BitVec 3) :
    Laws.Placed.Statement (.watchTrigger t) := rfl
theorem Laws.Placed.ethFrameReceive (port : BitVec 1) (fcsOk : Bool) (bytes : List (BitVec 8)) :
    Laws.Placed.Statement (.ethFrameReceive port fcsOk bytes) := rfl
theorem Laws.Placed.ptpMessage (port : BitVec 1) (t1 t2 t3 t4 : BitVec 64) :
    Laws.Placed.Statement (.ptpMessage port t1 t2 t3 t4) := rfl
theorem Laws.Placed.streamEviction (t : BitVec 3) (slot : BitVec 10) :
    Laws.Placed.Statement (.streamEviction t slot) := rfl
theorem Laws.Placed.streamRestore (t : BitVec 3) (slot : BitVec 10) :
    Laws.Placed.Statement (.streamRestore t slot) := rfl
theorem Laws.Placed.pageInSwitch (k : Nat) :
    Laws.Placed.Statement (.pageInSwitch k) := rfl
theorem Laws.Placed.evictionRetry (t : BitVec 3) :
    Laws.Placed.Statement (.evictionRetry t) := rfl
theorem Laws.Placed.evictionSwitch (k : Nat) :
    Laws.Placed.Statement (.evictionSwitch k) := rfl
theorem Laws.Placed.backgroundZeroing (unit : Nat) :
    Laws.Placed.Statement (.backgroundZeroing unit) := rfl
theorem Laws.Placed.spireErrorThreshold (t : BitVec 3) (spire : BitVec 5) (errors : BitVec 16) :
    Laws.Placed.Statement (.spireErrorThreshold t spire errors) := rfl
theorem Laws.Placed.spireLaneFail (t : BitVec 3) (spire : BitVec 5) :
    Laws.Placed.Statement (.spireLaneFail t spire) := rfl
theorem Laws.Placed.sprqDecide (t : BitVec 3) (v : BitVec 64) :
    Laws.Placed.Statement (.sprqDecide t v) := rfl
theorem Laws.Placed.sprqSpare (t : BitVec 3) (v : BitVec 64) :
    Laws.Placed.Statement (.sprqSpare t v) := rfl
theorem Laws.Placed.sprqReroute (t : BitVec 3) (v : BitVec 64) :
    Laws.Placed.Statement (.sprqReroute t v) := rfl
theorem Laws.Placed.spireRetirement (t : BitVec 3) (spire : BitVec 5) :
    Laws.Placed.Statement (.spireRetirement t spire) := rfl
theorem Laws.Placed.bufferMigration (t : BitVec 3) (spire : BitVec 5) :
    Laws.Placed.Statement (.bufferMigration t spire) := rfl
theorem Laws.Placed.sensorSample (t : BitVec 3) (sensor : BitVec 2) (reading : BitVec 16) :
    Laws.Placed.Statement (.sensorSample t sensor reading) := rfl
theorem Laws.Placed.thermalStepTimer (t : BitVec 3) :
    Laws.Placed.Statement (.thermalStepTimer t) := rfl
theorem Laws.Placed.thermalReleaseTimer (t : BitVec 3) :
    Laws.Placed.Statement (.thermalReleaseTimer t) := rfl
theorem Laws.Placed.powerThrottleAdjust (t : BitVec 3) (milliwatts : Nat) :
    Laws.Placed.Statement (.powerThrottleAdjust t milliwatts) := rfl
theorem Laws.Placed.softErrorAtRest (place : ErrorPlace) (uncorrectable : Bool) :
    Laws.Placed.Statement (.softErrorAtRest place uncorrectable) := rfl
theorem Laws.Placed.supervisorTrapEntry (t : BitVec 3) :
    Laws.Placed.Statement (.supervisorTrapEntry t) := rfl
theorem Laws.Placed.heldTrapRetry (t : BitVec 3) :
    Laws.Placed.Statement (.heldTrapRetry t) := rfl
theorem Laws.Placed.cfsynResume (t : BitVec 3) (c : BitVec 6) :
    Laws.Placed.Statement (.cfsynResume t c) := rfl
theorem Laws.Placed.cfsynSuspend (t : BitVec 3) (c : BitVec 6) :
    Laws.Placed.Statement (.cfsynSuspend t c) := rfl
theorem Laws.Placed.tfgoFill (t : BitVec 3) (v : BitVec 64) :
    Laws.Placed.Statement (.tfgoFill t v) := rfl
theorem Laws.Placed.tfgoFail (t : BitVec 3) (v : BitVec 64) :
    Laws.Placed.Statement (.tfgoFail t v) := rfl
theorem Laws.Placed.tkillTask (t : BitVec 3) (v : BitVec 64) :
    Laws.Placed.Statement (.tkillTask t v) := rfl
theorem Laws.Placed.tkillContextTower (t : BitVec 3) (v : BitVec 64) :
    Laws.Placed.Statement (.tkillContextTower t v) := rfl
theorem Laws.Placed.tkillContextPackage (t : BitVec 3) (v : BitVec 64) :
    Laws.Placed.Statement (.tkillContextPackage t v) := rfl
theorem Laws.Placed.sevw (t : BitVec 3) (v : BitVec 64) :
    Laws.Placed.Statement (.sevw t v) := rfl
theorem Laws.Placed.svcr (t : BitVec 3) (v : BitVec 64) :
    Laws.Placed.Statement (.svcr t v) := rfl
theorem Laws.Placed.otw (t : BitVec 3) (v : BitVec 64) :
    Laws.Placed.Statement (.otw t v) := rfl
theorem Laws.Placed.otwBusyClear (t : BitVec 3) :
    Laws.Placed.Statement (.otwBusyClear t) := rfl
theorem Laws.Placed.xinvPage (t : BitVec 3) (v : BitVec 64) :
    Laws.Placed.Statement (.xinvPage t v) := rfl
theorem Laws.Placed.xinvContext (t : BitVec 3) (v : BitVec 64) :
    Laws.Placed.Statement (.xinvContext t v) := rfl
theorem Laws.Placed.xinvAll (t : BitVec 3) (v : BitVec 64) :
    Laws.Placed.Statement (.xinvAll t v) := rfl
theorem Laws.Placed.xinvDone :
    Laws.Placed.Statement (.xinvDone) := rfl
theorem Laws.Placed.vbdEnable (t : BitVec 3) (c : BitVec 6) (n : BitVec 3) (v : BitVec 64) :
    Laws.Placed.Statement (.vbdEnable t c n v) := rfl
theorem Laws.Placed.vbdDisable (t : BitVec 3) (c : BitVec 6) (n : BitVec 3) (v : BitVec 64) :
    Laws.Placed.Statement (.vbdDisable t c n v) := rfl
theorem Laws.Placed.cfmWrite (t : BitVec 3) (c : BitVec 6) (v : BitVec 64) :
    Laws.Placed.Statement (.cfmWrite t c v) := rfl
theorem Laws.Placed.budWrite (t : BitVec 3) (ctx : BitVec 12) (v : BitVec 64) :
    Laws.Placed.Statement (.budWrite t ctx v) := rfl
theorem Laws.Placed.frmcfgWrite (v : BitVec 64) :
    Laws.Placed.Statement (.frmcfgWrite v) := rfl
theorem Laws.Placed.tofsWrite (v : BitVec 64) :
    Laws.Placed.Statement (.tofsWrite v) := rfl
theorem Laws.Placed.hcwWrite (t : BitVec 3) (v : BitVec 64) :
    Laws.Placed.Statement (.hcwWrite t v) := rfl
theorem Laws.Placed.registerWrite (a : Agent) (n : BitVec 12) (v : BitVec 64) :
    Laws.Placed.Statement (.registerWrite a n v) := rfl
theorem Laws.Placed.hostPostedWrite (bar : BitVec 3) (off : BitVec 21) (bytes : List (BitVec 8)) :
    Laws.Placed.Statement (.hostPostedWrite bar off bytes) := rfl
theorem Laws.Placed.hostRead (bar : BitVec 3) (off : BitVec 21) (n : Nat) :
    Laws.Placed.Statement (.hostRead bar off n) := rfl
theorem Laws.Placed.hostAtomicRequest (bar : BitVec 3) (off : BitVec 21) :
    Laws.Placed.Statement (.hostAtomicRequest bar off) := rfl
theorem Laws.Placed.platctlWrite (v : BitVec 64) :
    Laws.Placed.Statement (.platctlWrite v) := rfl
theorem Laws.Placed.resumeWrite (v : BitVec 64) :
    Laws.Placed.Statement (.resumeWrite v) := rfl
theorem Laws.Placed.controlWindowWrite (off : BitVec 16) (v : BitVec 64) :
    Laws.Placed.Statement (.controlWindowWrite off v) := rfl
theorem Laws.Placed.linkTraining (link : BitVec 4) (trained : Bool) (peer : BitVec 4) :
    Laws.Placed.Statement (.linkTraining link trained peer) := rfl
theorem Laws.Placed.packageReset :
    Laws.Placed.Statement (.packageReset) := rfl
theorem Laws.Placed.pcieLinkTrain :
    Laws.Placed.Statement (.pcieLinkTrain) := rfl
theorem Laws.Placed.aknelVerify (firmware platform : Image) :
    Laws.Placed.Statement (.aknelVerify firmware platform) := rfl
theorem Laws.Placed.dramSpireTraining (t : BitVec 3) (failing : BitVec 32) :
    Laws.Placed.Statement (.dramSpireTraining t failing) := rfl
theorem Laws.Placed.malaskunStart (adr : BitVec 36) (entry : BitVec 64) :
    Laws.Placed.Statement (.malaskunStart adr entry) := rfl
theorem Laws.Placed.attestationRequest (nonce : List (BitVec 8)) :
    Laws.Placed.Statement (.attestationRequest nonce) := rfl
theorem Laws.Placed.accessPerformedAtHome (access : Nat) (granule : Option Nat) (err : DataError) :
    Laws.Placed.Statement (.accessPerformedAtHome access granule err) := rfl
theorem Laws.Placed.ptpMasterLost :
    Laws.Placed.Statement (.ptpMasterLost) := rfl

end Sys2Proof
end

