-- ==== Sys2Proof/Tests/Slice0.lean ====
section
/-!
SUPPORT. Tests of the model: what the static check refuses, words of the spec's encodings, results worked out in the spec, and for
every statement of Certificates/Slice0/Obligations.lean a state and operands that meet its hypotheses.
-/
namespace Sys2Proof.Tests
section
open Sys2Proof Sys2Proof.Machine
set_option Elab.async false

/-! ### States to test on -/

/-- May a syllable run? The same three tests as `Ready`. -/
def ready (i : Instr) (s : State) : Bool :=
  predicateHolds (curTask s) i.head && (decodeFault none s i).isNone && (operandHold s i).isNone

theorem ready_iff (i : Instr) (s : State) : ready i s = true ↔ Ready i s := by
  simp [ready, Ready, and_assoc]

/-- No predicate: flag c0 is always set. -/
def h0 : Head := ⟨0, 0, 0⟩

def draft : Agent := .core 0 0
def check : Agent := .core 0 32
def boss : Agent := .sup 0

/-- A task with 640 vector registers and 8 tiles. -/
def task : Task := { Task.blank with num := 5, ctx := 3, status := .placed, desc := 640 * 2 ^ 118 + 8 * 2 ^ 114, pc := 0x1000 }

/-- A task stands on a core and acts. -/
def on (a : Agent) (k : Task) : State :=
  { State.reset with cur := a, cores := [(coreKey a, { CoreSt.reset (coreKey a) with live := true, task := k })] }

/-- A task with one scalar register set. -/
def withS (r : Nat) (x : Word) : Task := { task with s := [(r, x)] }

/-- The state after a step that answers one. -/
def result (o : Host.Outcome State Fault Refusal) : State :=
  match o with
  | .next t => t
  | _ => State.reset

/-- The value that a scalar register has once all results on their way have come. -/
def sAfter (i : Instr) (s : State) (r : Nat) : Word := scalarReg (commitAll (curTask (result (exec i s)))) r

/-! ### What the static check refuses: one ill-formed term for each check -/

theorem test_ill_formed_scalar :
    [Instr.and .sca ⟨0, 0, 1⟩ ⟨1, 2, 3, 0, 0, 0⟩, .mul .sca h0 ⟨64, 2, 3, 0, 0, 0⟩, .xor .scb h0 ⟨1, 80, 3, 0, 0, 0⟩,
      .add .sca h0 ⟨1, 2, 3, 0, 0, 8⟩, .clz .sca h0 ⟨1, 2, 3, 0, 0, 0⟩, .sel .sca h0 ⟨1, 2, 3, 1, 0, 0⟩, .addi .sca h0 ⟨64, 1, 0⟩,
      .shli .sca h0 ⟨1, 1, 64⟩, .addpc .sca h0 ⟨1, 1, 0⟩, .fshl .sca h0 ⟨1, 2, 3, 4, 0, 1⟩, .cmp .sca h0 ⟨0, 1, 2, 0, 0, 0⟩,
      .cmpi .sca h0 ⟨16, 1, 0⟩, .bfx .sca h0 ⟨1, 2, 0, 0, 0, 63 * 64 + 1⟩, .bfi .sca h0 ⟨1, 2, 3, 0, 0, 4096⟩,
      .li .sca h0 ⟨64, 0⟩, .lih .sca h0 ⟨1, 0x400000⟩, .phash h0 ⟨1, 2, 57, 3, 0, 0⟩].all (fun i => !i.wf) = true := by
  decide +kernel

theorem test_ill_formed_control :
    [Instr.pbr h0 ⟨1, 1, 0, 0⟩, .pbrr h0 ⟨0, 1, 0, 0, 0, 8⟩, .xfer h0 ⟨1, 0, 1, 0⟩, .xferl h0 ⟨1, 0, 64, 0⟩, .loop h0 ⟨4, 1, 0, 0, 0, 1⟩,
      .loopi h0 ⟨0, 0, 1, 0, 0, 0⟩, .breakLoop h0 ⟨4, 0, 0, 0, 0, 0⟩, .vany h0 ⟨0, 0, 1, 0, 1, 0⟩, .fop h0 ⟨0, 0, 0, 0, 1, 11⟩,
      .wfe h0 ⟨0, 0, 0, 0, 0, 1⟩, .sev h0 ⟨0, 0, 0, 0, 0, 3⟩, .tend h0 ⟨1, 0, 0, 0, 0, 0⟩, .amov h0 ⟨1, 1, 1, 0⟩, .aaddi h0 ⟨1, 0, 1, 0⟩,
      .acfg h0 ⟨1, 0, 1, 0⟩, .aind h0 ⟨0, 0, 1, 0⟩, .arun h0 ⟨0, 0, 0, 0⟩, .astop h0 ⟨0, 0, 0, 1⟩].all (fun i => !i.wf) = true := by
  decide +kernel

theorem test_ill_formed_vector :
    [Instr.vadd h0 ⟨640, 0, 1, 2, 0, 0, 0⟩, .vmov h0 ⟨1, 0, 2, 3, 0, 0, 0⟩, .vfma h0 ⟨1, 0, 1, 2, 3, 0, 1⟩, .vrsum h0 ⟨1, 0, 2, 8, 0, 0, 0⟩,
      .vcmp h0 ⟨16, 0, 1, 2, 0, 0, 0⟩, .vqand h0 ⟨1, 0, 2, 16, 0, 0, 0⟩, .vqnot h0 ⟨1, 0, 2, 3, 0, 0, 0⟩, .vsel h0 ⟨1, 0, 2, 3, 16, 0, 0⟩,
      .vperm h0 ⟨1, 0, 2, 3, 4, 9, 0⟩, .vbcast h0 ⟨1, 0, 1, 2, 0, 0, 0⟩, .vbcastLn h0 ⟨1, 0, 1, 2, 0, 0, 0⟩, .vins h0 ⟨1, 0, 2, 80, 3, 0, 0⟩,
      .vext h0 ⟨1, 0, 2, 3, 80, 0, 0⟩, .vcvt h0 ⟨1, 0, 2, 8, 0, 8, 0⟩, .vpack h0 ⟨1, 0, 2, 3, 0, 3, 0⟩, .vunpk h0 ⟨1, 0, 2, 2, 0, 10, 2⟩,
      .vzps h0 ⟨1, 0, 2, 3, 0, 3, 0⟩, .vplx h0 ⟨1, 0, 2, 3, 12, 0, 0⟩, .vpli h0 ⟨1, 0, 2, 0, 0, 12, 0⟩, .vexp2 h0 ⟨1, 0, 2, 0, 0, 0, 0⟩,
      .vmrg h0 ⟨1, 0, 2, 3, 0, 10, 5⟩, .gidx h0 ⟨0, 0, 2, 32, 0, 0, 0⟩, .gath h0 ⟨1, 0, 0, 0, 0, 0, 1⟩].all (fun i => !i.wf) = true := by
  decide +kernel

theorem test_ill_formed_matrix :
    [Instr.mcfg h0 ⟨0, 640, 0, 0, 0, 0⟩, .mzero h0 ⟨0, 1, 0, 0, 0, 0⟩, .mpush h0 ⟨0, 1, 0, 8, 0, 0⟩, .mshf h0 ⟨1, 0, 0, 0, 0, 0⟩,
      .macc h0 ⟨0, 0, 0, 4, 0, 0⟩, .macch h0 ⟨1, 0, 0, 0, 0, 0⟩, .mdrn h0 ⟨0, 640, 0, 0, 10, 0⟩].all (fun i => !i.wf) = true := by
  decide +kernel

theorem test_ill_formed_memory :
    [Instr.ld h0 ⟨64, 0, 0, 0, 0, 0, 0⟩, .ldz h0 ⟨0, 0, 1, 0, 0, 0, 0⟩, .st h0 ⟨0, 0, 0, 0, 1, 0, 0⟩, .vld h0 ⟨639, 0, 0, 0, 0, 1, 0⟩,
      .vst h0 ⟨1008, 0, 0, 0, 0, 1, 0⟩, .amo h0 ⟨0x200, 0, 0, 0, 0, 0, 9 * 2 ^ 13⟩, .cas h0 ⟨0x200, 0, 0, 0, 0, 0, 0⟩,
      .mark h0 ⟨0, 0, 0, 0, 0, 0, 1⟩, .bld h0 ⟨1, 0, 0, 0, 0, 0, 0⟩, .xlate h0 ⟨0, 0, 0, 80, 0, 0, 0⟩, .fence h0 ⟨0, 0, 0, 4⟩,
      .cpy h0 ⟨1, 2, 3, 4, 5, 0⟩, .cpyt h0 ⟨1, 2, 3, 4, 80, 0⟩, .waitc h0 ⟨1, 2, 3, 0, 0, 0⟩, .sqopen h0 ⟨64, 1, 0, 0, 0, 0⟩].all
      (fun i => !i.wf) = true := by decide +kernel

theorem test_ill_formed_system :
    [Instr.spawn h0 ⟨1, 2, 3, 0x9000⟩, .gbar h0 ⟨0, 0, 0, 5⟩, .watch h0 ⟨1, 2, 3, 1⟩, .rdtime h0 ⟨1, 0, 0, 4⟩, .waittTick h0 ⟨0, 1, 2, 0⟩,
      .icinv h0 ⟨0, 1, 0, 3⟩].all (fun i => !i.wf) = true := by decide +kernel

/-! ### Words written out from the formats of R224 and the opcode maps of R221 -/

/-- A syllable's word from its opcode byte and its fields: each a number and the bit it begins at. -/
def spell (opc : Nat) (fields : List (Nat × Nat)) : Word :=
  BitVec.ofNat 64 (opc * 2 ^ 56 + (fields.map (fun f => f.1 * 2 ^ f.2)).sum)

theorem test_decode_spec_examples :
    decodeSyllable 1 0x0100_1020_1000_0000 = some (.add .sca h0 ⟨4, 4, 1, 0, 0, 0⟩) ∧
    decodeSyllable 4 0x0100_0600_3014_0090 = some (.vadd h0 ⟨12, 0, 3, 5, 0, 9, 0⟩) ∧
    decodeSyllable 7 0x0101_8488_0000_0003 = some (.ld h0 ⟨0x309, 2, 0, 0, 0, 0, 3⟩) ∧
    decodeSyllable 9 0x0400_1414_61CA_0040 = some (.wvld h0 ⟨40, 5, 3, 7, 0, 5, 64⟩) ∧
    decodeSyllable 10 0x0100_50A9_62E6_0001 = some (.cpy h0 ⟨20, 21, 22, 23, 24, 1⟩) ∧
    decodeSyllable 6 0x0600_0000_0000_0300 = some (.macc h0 ⟨0, 0, 0, 3, 0, 0⟩) := by decide +kernel

theorem test_decode_head :
    decodeSyllable 1 (spell 0x22 [(5, 52), (1, 51), (2, 49), (1, 42), (2, 35), (3, 28), (7, 17)]) =
      some (.sel .sca ⟨5, 1, 2⟩ ⟨1, 2, 3, 0, 7, 0⟩) := by decide +kernel

theorem test_decode_control :
    decodeSyllable 0 (spell 0x08 [(1, 42), (7, 35), (5, 0)]) = some (.loop h0 ⟨1, 7, 0, 0, 0, 5⟩) ∧
    decodeSyllable 0 (spell 0x0A [(2, 42)]) = some (.breakLoop h0 ⟨2, 0, 0, 0, 0, 0⟩) ∧
    decodeSyllable 0 (spell 0x10 [(3, 35), (4, 17)]) = some (.vany h0 ⟨0, 3, 0, 0, 4, 0⟩) ∧
    decodeSyllable 0 (spell 0x19 [(9, 35)]) = some (.sev h0 ⟨0, 9, 0, 0, 0, 0⟩) ∧
    decodeSyllable 0 (spell 0x1F []) = some (.tend h0 ⟨0, 0, 0, 0, 0, 0⟩) := by decide +kernel

theorem test_decode_agu :
    decodeSyllable 3 (spell 0x02 [(3, 45), (9, 36)]) = some (.aadd h0 ⟨3, 0, 9, 0⟩) ∧
    decodeSyllable 3 (spell 0x03 [(4, 45), (2 ^ 36 - 1, 0)]) = some (.aaddi h0 ⟨4, 0, 0, -1⟩) ∧
    decodeSyllable 3 (spell 0x08 [(2, 43), (5, 36), (400, 0)]) = some (.acfg h0 ⟨0, 2, 5, 400⟩) ∧
    decodeSyllable 3 (spell 0x0A [(1, 45), (40, 36), (3, 0)]) = some (.arun h0 ⟨1, 0, 40, 3⟩) := by decide +kernel

theorem test_decode_vector :
    decodeSyllable 4 (spell 0x04 [(9, 39), (1, 28), (2, 18), (3, 8), (10, 4), (1, 0)]) = some (.vfma h0 ⟨9, 0, 1, 2, 3, 10, 1⟩) ∧
    decodeSyllable 4 (spell 0x32 [(9, 39), (7, 18)]) = some (.vbcast h0 ⟨9, 0, 0, 7, 0, 0, 0⟩) ∧
    decodeSyllable 4 (spell 0x32 [(9, 39), (8, 28), (7, 18), (1, 0)]) = some (.vbcastLn h0 ⟨9, 0, 8, 7, 0, 0, 1⟩) ∧
    decodeSyllable 4 (spell 0x01 [(1, 38), (0x3F8, 28)]) = some (.vadd h0 ⟨0, 1, 0x3F8, 0, 0, 0, 0⟩) := by decide +kernel

theorem test_decode_memory :
    decodeSyllable 8 (spell 0x03 [(2, 47), (11, 39), (4, 34), (2, 20), (3, 17), (2 ^ 17 - 1, 0)]) =
      some (.gst h0 ⟨0x20B, 4, 0, 0, 2, 3, -1⟩) ∧
    decodeSyllable 9 (spell 0x09 [(3, 47), (1, 39), (4, 34), (6, 29)]) = some (.wcas h0 ⟨0x301, 4, 6, 0, 0, 0, 0⟩) ∧
    decodeSyllable 9 (spell 0x10 [(4, 34), (9, 22)]) = some (.bld h0 ⟨0, 4, 0, 9, 0, 0, 0⟩) ∧
    decodeSyllable 8 (spell 0x10 [(4, 34), (9, 22)]) = none ∧ decodeSyllable 7 (spell 0x11 []) = none := by decide +kernel

theorem test_decode_system :
    decodeSyllable 11 (spell 0x18 [(7, 0)]) = some (.fence h0 ⟨0, 0, 0, 7⟩) ∧
    decodeSyllable 11 (spell 0x12 [(1, 42), (2, 35), (3, 28)]) = some (.vhold h0 ⟨1, 2, 3, 0⟩) ∧
    decodeSyllable 11 (spell 0x22 [(1, 42), (2, 35), (0x1234, 0)]) = some (.svc h0 ⟨1, 2, 0, 0x1234⟩) ∧
    decodeSyllable 11 (spell 0x23 []) = some (.eret h0 ⟨0, 0, 0, 0⟩) ∧
    decodeSyllable 10 (spell 0x12 [(1, 42), (2, 35), (3, 28), (4, 21), (0x3FFF, 0)]) = some (.sqnode h0 ⟨1, 2, 3, 4, 0, 0x3FFF⟩) ∧
    decodeSyllable 10 (spell 0x1C [(1, 42), (2, 35), (3, 28), (4, 21), (5, 14)]) = some (.kvpoolEnable h0 ⟨1, 2, 3, 4, 5, 0⟩) := by
  decide +kernel

theorem test_decode_gather :
    decodeSyllable 5 (spell 0x01 [(4, 28), (6, 18), (11, 4)]) = some (.gidx h0 ⟨0, 0, 4, 6, 0, 11, 0⟩) ∧
    decodeSyllable 5 (spell 0x02 [(4, 39)]) = some (.gath h0 ⟨4, 0, 0, 0, 0, 0, 0⟩) := by decide +kernel

theorem test_reserved_opcodes :
    [0, 1, 2, 3, 4, 5, 6, 7, 8, 9, 10, 11].all (fun n => (decodeSyllable n 0).isNone && (decodeSyllable n (spell 0xFF [])).isNone) =
      true := by decide +kernel

/-- The slots of a bundle and the bytes left behind it; nothing where it is refused. -/
def slotsOf (bs : List Byte) : Option (Bool × Bool × List Nat × Nat) :=
  match splitBundle bs with
  | .ok (b, l) => some (b.stop, b.drain, b.syls.map Prod.fst, l.length)
  | .error _ => none

/-- The template word of the example of chapter 11, and a template with a reserved bit. -/
theorem test_template :
    slotsOf (natBytes 4 0x0924_0000 ++ List.replicate 24 0) = some (true, false, [1, 4, 7], 0) ∧ slotsOf (natBytes 4 1) = none := by
  decide +kernel

theorem next_result {o : Host.Outcome State Fault Refusal} (h : ∃ t, o = .next t) : o = .next (result o) := by
  obtain ⟨t, rfl⟩ := h; rfl

/-! ### Results worked out from the rules -/

/-- R241, R242, R243 on small operands: a shifted difference, a division that overflows, a remainder by zero, a high product. -/
theorem test_scalar_results :
    sAfter (.sub .sca h0 ⟨1, 2, 2, 0, 0, 3⟩) (on check (withS 2 5)) 1 = BitVec.ofInt 64 (-35) ∧
    sAfter (.div h0 ⟨1, 2, 3, 0, 0, 0⟩) (on check { task with s := [(2, 0x8000_0000_0000_0000), (3, -1)] }) 1 =
      0x8000_0000_0000_0000 ∧
    sAfter (.rem h0 ⟨1, 2, 0, 0, 0, 0⟩) (on check (withS 2 77)) 1 = 77 ∧
    sAfter (.mulh .scb h0 ⟨1, 2, 2, 0, 0, 0⟩) (on check (withS 2 (-1))) 1 = 0 ∧
    sAfter (.addi .sca h0 ⟨0, 0, 5⟩) (on check task) 0 = 0 := by decide +kernel

/-- R244, R246: a funnel shift by a constant, an extracted and an inserted field. -/
theorem test_scalar_fields :
    sAfter (.fshl .sca h0 ⟨1, 2, 3, 0, 0, 64 + 8⟩) (on check { task with s := [(2, 1), (3, 0xAB00_0000_0000_0000)] }) 1 = 0x1AB ∧
    sAfter (.bfx .sca h0 ⟨1, 2, 0, 0, 0, 3 * 64 + 4⟩) (on check (withS 2 0xF0)) 1 = -1 ∧
    sAfter (.bfi .sca h0 ⟨1, 2, 3, 0, 0, 7 * 64 + 56⟩) (on check { task with s := [(2, 5), (3, 0x1FF)] }) 1 = 0xFF00_0000_0000_0005 ∧
    sAfter (.lih .sca h0 ⟨2, 3⟩) (on check (withS 2 (-1))) 2 = 0x0000_0FFF_FFFF_FFFF := by decide +kernel

/-! ### Witnesses: scalar slots -/

def wS : State := on check { task with s := [(5, 7), (6, 3)], c := 2 }

theorem witness_ArithmeticResults :
    [Port.sca, Port.scb].all (fun p =>
      [Instr.add p h0 ⟨4, 5, 6, 0, 0, 7⟩, .sub p h0 ⟨4, 5, 6, 0, 0, 0⟩, .mul p h0 ⟨63, 79, 6, 0, 0, 0⟩, .mulh p h0 ⟨4, 5, 6, 0, 0, 0⟩,
        .mulhu p h0 ⟨0, 5, 6, 0, 0, 0⟩, .div h0 ⟨4, 5, 0, 0, 0, 0⟩, .divu h0 ⟨4, 5, 6, 0, 0, 0⟩, .rem h0 ⟨4, 5, 0, 0, 0, 0⟩,
        .remu h0 ⟨4, 5, 6, 0, 0, 0⟩, .addi p h0 ⟨4, 5, -1⟩, .addpc p h0 ⟨4, 0, 8⟩].all (fun i => ready i wS)) = true := by decide +kernel

theorem witness_LogicAndShiftResults :
    [Port.sca, Port.scb].all (fun p =>
      [Instr.and p h0 ⟨4, 5, 6, 0, 0, 0⟩, .or p h0 ⟨4, 5, 6, 0, 0, 0⟩, .xor p h0 ⟨4, 5, 6, 0, 0, 0⟩, .andn p h0 ⟨4, 5, 6, 0, 0, 0⟩,
        .shl p h0 ⟨4, 5, 6, 0, 0, 0⟩, .shr p h0 ⟨4, 5, 6, 0, 0, 0⟩, .sar p h0 ⟨4, 5, 6, 0, 0, 0⟩, .fshl p h0 ⟨4, 5, 6, 7, 0, 0⟩,
        .fshl p h0 ⟨4, 5, 6, 0, 0, 64 + 63⟩, .fshr p h0 ⟨4, 5, 6, 7, 0, 0⟩, .fshr p h0 ⟨4, 5, 6, 0, 0, 64⟩, .andi p h0 ⟨4, 5, -1⟩,
        .ori p h0 ⟨4, 5, -1⟩, .xori p h0 ⟨4, 5, 1⟩, .shli p h0 ⟨4, 5, 63⟩, .shri p h0 ⟨4, 5, 0⟩, .sari p h0 ⟨4, 5, 63⟩].all
        (fun i => ready i wS)) = true := by decide +kernel

theorem witness_CompareAndSelectResults :
    [Port.sca, Port.scb].all (fun p =>
      (List.range 24).all (fun n => ready (.cmp p h0 ⟨0, 5, 6, 0, 1, BitVec.ofNat 17 n⟩) wS) &&
      (List.range 8).all (fun n => ready (.cmpi p h0 ⟨BitVec.ofNat 7 (16 * n + 15), 5, -3⟩) wS) &&
      [Instr.sel p h0 ⟨4, 5, 6, 0, 0, 0⟩, .min p h0 ⟨4, 5, 6, 0, 0, 0⟩, .max p h0 ⟨4, 5, 6, 0, 0, 0⟩, .minu p h0 ⟨4, 5, 6, 0, 0, 0⟩,
        .maxu p h0 ⟨4, 5, 6, 0, 0, 0⟩].all (fun i => ready i wS)) = true := by decide +kernel

theorem witness_BitFieldAndCountResults :
    [Port.sca, Port.scb].all (fun p =>
      [Instr.bfx p h0 ⟨4, 5, 0, 0, 0, 63 * 64⟩, .bfx p h0 ⟨4, 5, 0, 0, 0, 63⟩, .bfxu p h0 ⟨4, 5, 0, 0, 0, 7 * 64 + 8⟩,
        .bfi p h0 ⟨4, 5, 6, 0, 0, 7 * 64 + 56⟩, .clz p h0 ⟨4, 5, 0, 0, 0, 0⟩, .ctz p h0 ⟨4, 0, 0, 0, 0, 0⟩, .popc p h0 ⟨4, 5, 0, 0, 0, 0⟩,
        .brev p h0 ⟨4, 5, 0, 0, 0, 0⟩, .bswap p h0 ⟨4, 5, 0, 0, 0, 0⟩].all (fun i => ready i wS) && hasFeature wS (slotFeature p.slot)) = true ∧
    predicateHolds (curTask wS) h0 = true ∧ 64 < (63 * 64 + 1) % 64 + ((63 * 64 + 1) / 64 % 64 + 1) := by decide +kernel

theorem witness_ConstantAndHashResults :
    [Port.sca, Port.scb].all (fun p =>
      [Instr.li p h0 ⟨4, -1⟩, .lih p h0 ⟨5, 0x3FFFFF⟩, .phash h0 ⟨4, 5, 56, 6, 0, 0⟩].all (fun i => ready i wS)) = true := by decide +kernel

theorem witness_ScalarAndFlagFrame :
    ready (.add .sca h0 ⟨4, 5, 6, 0, 0, 0⟩) wS = true ∧ scalarDest (.add .sca h0 ⟨4, 5, 6, 0, 0, 0⟩) = some 4 ∧
    exec (.add .sca h0 ⟨4, 5, 6, 0, 0, 0⟩) wS = .next (result (exec (.add .sca h0 ⟨4, 5, 6, 0, 0, 0⟩) wS)) ∧
    ready (.cmp .scb h0 ⟨0, 5, 6, 0, 15, 0⟩) wS = true ∧ flagDest (.cmp .scb h0 ⟨0, 5, 6, 0, 15, 0⟩) = some 15 ∧
    exec (.cmp .scb h0 ⟨0, 5, 6, 0, 15, 0⟩) wS = .next (result (exec (.cmp .scb h0 ⟨0, 5, 6, 0, 15, 0⟩) wS)) :=
  ⟨by decide +kernel, rfl, next_result ⟨_, rfl⟩, by decide +kernel, rfl, next_result ⟨_, rfl⟩⟩

/-- A result that can raise a flag is on its way, and falls before a new one of L = 4. -/
theorem witness_ResultDelivery :
    let k := { task with due := [{ due := 3, born := 0, slot := 4, dst := .vector none 0, ring := none, flags := 1, poisoned := none }] }
    0 < 4 ∧ k.due.length = 1 ∧ k.due.all (fun y => decide (y.due ≤ k.issued + 4) && !dueBefore (mkDue k 4 1 (.target 7 9) none 0 none) y) = true := by
  decide +kernel

/-! ### Witnesses: control -/

/-- Two NOP bundles and more zeros stand where a task reads its program: a supervisor core fetches from TM (log 16). -/
def wT (x : Word) : State := on boss { task with t := [(1, x)], s := [(5, 2)] }

theorem witness_TransferResults :
    ready (.pbr h0 ⟨7, 0, 0, -1⟩) (wT 0) = true ∧ ready (.pbrr h0 ⟨0, 5, 0, 0, 0, 7⟩) (wT 0) = true ∧
    ready (.xfer h0 ⟨1, 3, 0, 0⟩) (wT 0x40) = true ∧ canonical 0x40 = true ∧ ready (.xferl h0 ⟨1, 0, 63, 0⟩) (wT 0x40) = true ∧
    (afterBundles (modTask (wT 0x40) (fun t => { t with pend := some ⟨0x40, 0, false, none⟩ })) boss 1 0x1000).1.isOk = true ∧
    ready (.xfer h0 ⟨1, 3, 0, 0⟩) (wT 0x42) = true ∧ (0x42 : Word).toNat % 4 ≠ 0 ∧
    canonical 0x8000_0000_0000_0000 = false ∧ ready (.xferl h0 ⟨1, 0, 63, 0⟩) (wT 0x8000_0000_0000_0000) = true := by decide +kernel

def loopOn (order : Nat) (stop count : Word) : LoopSt := ⟨count, true, 0x900, stop, order⟩

def wL : State := on boss { task with s := [(5, 2)], loops := [loopOn 1 0x1000 2, loopOn 2 0x1000 1, LoopSt.zero, LoopSt.zero] }

theorem witness_LoopResults :
    ready (.loop h0 ⟨1, 5, 0, 0, 0, 1⟩) wL = true ∧ ready (.loop h0 ⟨1, 0, 0, 0, 0, 0x1FFFF⟩) wL = true ∧
    ready (.loopi h0 ⟨3, 0, 1, 0, 0, 1⟩) wL = true ∧ ready (.loopi h0 ⟨3, 0, 0, 0, 0, 1⟩) wL = true ∧ (curTask wL).loops.length = 4 ∧
    (afterBundle wL boss 0x1000).1.isOk = true ∧ (afterBundle wL boss (0x1000 + 4 * 0x1FFFF)).1.isOk = true ∧
    ((curTask wL).loops.getD 1 LoopSt.zero).stop = 0x1000 ∧ (endLoops 4 0x1000 (curTask wL).loops).1 = some 0x900 ∧
    ready (.breakLoop h0 ⟨0, 0, 0, 0, 0, 0⟩) wL = true := by decide +kernel

theorem witness_votes_and_flags :
    (List.range 8).all (fun n => ready (.vany h0 ⟨0, 15, if n < 4 then 0 else 1, 0, 1, BitVec.ofNat 17 n⟩) wS) = true ∧
    (List.range 8).all (fun n => ready (.vall h0 ⟨0, 15, if n < 4 then 0 else 1, 0, 1, BitVec.ofNat 17 n⟩) wS) = true ∧
    (List.range 5).all (fun n => ready (.fop h0 ⟨0, 1, 2, 0, 15, BitVec.ofNat 17 n⟩) wS) = true ∧
    [5, 6].all (fun n => ready (.fop h0 ⟨0, 1, 0, 0, 15, n⟩) wS) = true ∧ [7, 8].all (fun n => ready (.fop h0 ⟨0, 0, 0, 0, 15, n⟩) wS) = true ∧
    [9, 10].all (fun n => ready (.fop h0 ⟨0, 0, 0, 5, 15, n⟩) wS) = true := by decide +kernel

theorem witness_EventResults :
    ready (.wfe h0 ⟨0, 0, 0, 0, 0, 0⟩) (on check { task with evp := true }) = true ∧ ready (.wfe h0 ⟨0, 0, 0, 0, 0, 0⟩) (on check task) = true ∧
    ready (.wfe h0 ⟨0, 0, 0, 0, 0, 0⟩) (on boss task) = true ∧
    ready (.wfe h0 ⟨0, 0, 0, 0, 0, 0⟩) (modTower (on boss task) 0 (fun w => { w with sup := { w.sup with evBit := true } })) = true ∧
    ready (.sev h0 ⟨0, 5, 0, 0, 0, 0⟩) (on check (withS 5 5)) = true ∧ findTask (on check (withS 5 5)) 5 = some (withS 5 5) ∧
    takesEvent (withS 5 5) = true ∧ ready (.sev h0 ⟨0, 5, 0, 0, 0, 0⟩) (on check (withS 5 6)) = true ∧
    findTask (on check (withS 5 6)) 6 = none ∧ ready (.sev h0 ⟨0, 0, 0, 0, 0, 1⟩) (on check task) = true ∧
    ready (.wfe h0 ⟨0, 0, 0, 0, 0, 0⟩) (on check { task with evp := true, evLast := some (0, true) }) = true ∧
    ready (.wfe h0 ⟨0, 0, 0, 0, 0, 0⟩) (modTower (on boss task) 0 (fun w => { w with evq := [⟨0, 0, 0, 0⟩] })) = true ∧
    findTask (on check { withS 5 5 with status := .ready }) 5 = some { withS 5 5 with status := .ready } ∧
    ready (.sev h0 ⟨0, 5, 0, 0, 0, 0⟩) (on check { withS 5 5 with status := .ready }) = true ∧
    ready (.sev h0 ⟨0, 5, 0, 0, 0, 0⟩) (on boss (withS 5 5)) = true ∧ ready (.sev h0 ⟨0, 0, 0, 0, 0, 2⟩) (on boss task) = true ∧
    ready (.sev h0 ⟨0, 0, 0, 0, 0, 2⟩) (on check task) = true := by decide +kernel

/-! ### Witnesses: vectors -/

def wV : State := on check { task with v := [(1, 0x0102), (2, 3)], s := [(5, 2)], q := [(2, 5)] }

/-- The instructions run, each with a mask where it may have one and on an integer and a floating type where it has both. -/
theorem witness_VectorArithmetic :
    [0, 1, 4, 8, 9, 10].all (fun ty => [0, 8].all (fun md =>
      [Instr.vadd h0 ⟨639, 0, 1, 0x3F8, if md = 8 then 2 else 0, ty, md⟩, .vsub h0 ⟨0, 1, 1, 2, if md = 8 then 15 else 0, ty, md⟩,
        .vmul h0 ⟨3, 0, 1, 2, if md = 8 then 2 else 0, ty, md⟩, .vmin h0 ⟨3, 0, 1, 2, if md = 8 then 2 else 0, ty, md⟩,
        .vmax h0 ⟨3, 0, 1, 2, if md = 8 then 2 else 0, ty, md⟩, .vabs h0 ⟨3, 0, 1, 0, if md = 8 then 2 else 0, ty, md⟩,
        .vneg h0 ⟨3, 0, 1, 0, if md = 8 then 2 else 0, ty, md⟩, .vfma h0 ⟨3, 0, 1, 2, 1, ty, 0⟩].all (fun i => ready i wV))) = true ∧
    [0, 3, 7].all (fun ty =>
      [Instr.vadds h0 ⟨3, 0, 1, 2, 0, ty, 0⟩, .vsubs h0 ⟨3, 0, 1, 2, 2, ty, 8⟩, .vmulh h0 ⟨3, 0, 1, 2, 2, ty, 8⟩].all (fun i => ready i wV)) =
      true ∧ ready (.vadd h0 ⟨3, 0, 1, 2, 0, 10, 1⟩) wV = true := by decide +kernel

theorem witness_VectorBitsAndMoves :
    [Instr.vand h0 ⟨3, 0, 1, 2, 2, 0, 8⟩, .vor h0 ⟨3, 0, 1, 2, 0, 3, 0⟩, .vxor h0 ⟨3, 0, 1, 2, 0, 7, 0⟩, .vandn h0 ⟨3, 0, 1, 2, 0, 1, 0⟩,
      .vshl h0 ⟨3, 0, 1, 2, 0, 0, 0⟩, .vshr h0 ⟨3, 0, 1, 2, 0, 3, 0⟩, .vsar h0 ⟨3, 0, 1, 2, 0, 4, 0⟩, .vpopc h0 ⟨3, 0, 1, 0, 0, 0, 0⟩,
      .vsel h0 ⟨3, 0, 1, 2, 15, 0, 0⟩, .vperm h0 ⟨3, 0, 1, 2, 1, 0, 0⟩, .vperm h0 ⟨3, 0, 1, 2, 0, 9, 0⟩, .vbcast h0 ⟨3, 0, 0, 5, 0, 10, 0⟩,
      .vbcastLn h0 ⟨3, 0, 1, 5, 2, 10, 9⟩, .vmov h0 ⟨3, 1, 1, 0, 0, 0, 0⟩, .vmov h0 ⟨3, 0, 1, 0, 0, 0, 0⟩, .vins h0 ⟨3, 0, 1, 5, 5, 0, 0⟩,
      .vext h0 ⟨3, 0, 1, 2, 5, 0, 0⟩].map (fun i => ready i wV) =
      [true, true, true, true, true, true, true, true, true, true, true, true, true, false, true, true, true] := by decide +kernel

theorem witness_VectorConversions :
    [Instr.vcvt h0 ⟨3, 0, 1, 0, 0, 10, 0⟩, .vcvt h0 ⟨3, 0, 1, 10, 0, 0, 0⟩, .vcvt h0 ⟨3, 0, 1, 3 * 32 + 10, 2, 0, 8⟩,
      .vpack h0 ⟨3, 0, 1, 2, 0, 0, 0⟩, .vpack h0 ⟨3, 0, 1, 2, 0, 9, 1⟩, .vunpk h0 ⟨3, 0, 1, 1, 0, 10, 2⟩, .vunpk h0 ⟨3, 0, 1, 0, 0, 1, 0⟩,
      .vzps h0 ⟨3, 0, 1, 2, 0, 0, 0⟩, .vzps h0 ⟨3, 0, 1, 2, 0, 10, 8⟩, .vplx h0 ⟨3, 0, 1, 2, 13, 0, 0⟩, .vplx h0 ⟨3, 0, 1, 2, 6 * 16 + 14, 10, 0⟩,
      .vpli h0 ⟨3, 0, 1, 0, 0, 13, 6⟩, .vpli h0 ⟨3, 0, 1, 0, 0, 14, 6⟩].all (fun i => ready i wV) = true := by decide +kernel

theorem witness_VectorReductionsAndPredicates :
    [Instr.vrsum h0 ⟨3, 0, 1, 0, 0, 0, 0⟩, .vrsum h0 ⟨3, 0, 1, 7, 2, 10, 8⟩, .vrmax h0 ⟨3, 0, 1, 7, 0, 4, 0⟩, .vrmin h0 ⟨3, 0, 1, 0, 2, 9, 8⟩,
      .vrand h0 ⟨3, 0, 1, 0, 0, 0, 0⟩, .vror h0 ⟨3, 0, 1, 7, 0, 3, 0⟩, .vcmp h0 ⟨15, 0, 1, 2, 0, 0, 5⟩, .vcmp h0 ⟨1, 0, 1, 2, 2, 10, 15⟩,
      .vqand h0 ⟨15, 0, 1, 2, 0, 0, 0⟩, .vqor h0 ⟨1, 0, 0, 15, 0, 0, 0⟩, .vqnot h0 ⟨1, 0, 2, 0, 0, 0, 0⟩].all (fun i => ready i wV) = true := by
  decide +kernel

theorem witness_VectorFunctions :
    [Instr.vexp2 h0 ⟨3, 0, 1, 0, 0, 8, 0⟩, .vexp2 h0 ⟨3, 0, 1, 0, 0, 10, 1⟩, .vrcp h0 ⟨3, 0, 1, 0, 0, 9, 0⟩, .vmrg h0 ⟨3, 0, 1, 2, 0, 10, 0⟩,
      .vmrg h0 ⟨3, 0, 1, 2, 0, 10, 4⟩].all (fun i => ready i wV) = true := by decide +kernel

theorem witness_VectorFrame :
    vecForm (.vmov h0 ⟨3, 0, 1, 0, 0, 0, 0⟩) = some (h0, ⟨3, 0, 1, 0, 0, 0, 0⟩) ∧ ready (.vmov h0 ⟨3, 0, 1, 0, 0, 0, 0⟩) wV = true ∧
    exec (.vmov h0 ⟨3, 0, 1, 0, 0, 0, 0⟩) wV = .next (result (exec (.vmov h0 ⟨3, 0, 1, 0, 0, 0, 0⟩) wV)) :=
  ⟨rfl, by decide +kernel, next_result ⟨_, rfl⟩⟩

/-- R298: shifts by a lane modulo the width; R299: an integer sum is exact. -/
theorem test_vector_results :
    laneAt 0 (mapGet 0 (commitAll (curTask (result (exec (.vshl h0 ⟨3, 0, 1, 2, 0, 0, 0⟩) wV)))).v 3) 0 = 16 ∧
    laneAt 0 (mapGet 0 (commitAll (curTask (result (exec (.vrsum h0 ⟨3, 0, 1, 0, 0, 0, 0⟩) wV)))).v 3) 0 = 3 ∧
    laneAt 0 (mapGet 0 (commitAll (curTask (result (exec (.vins h0 ⟨3, 0, 1, 5, 5, 0, 0⟩) wV)))).v 3) 2 = 2 := by decide +kernel

/-! ### Witnesses: matrix -/

/-- A configuration image: A format i8, B format nested weights of width 2, X of the tile, no bus. -/
def image (src : Nat) : VReg := BitVec.ofNat 16384 (5 * 2 ^ 48 + 2 ^ 47 + src * 2 ^ 40 + 13 * 2 ^ 20)

def ones : List Bool := [true, true, true, true, true, true, true, true]

def arr : Arr := { Arr.zero with afmt := some ⟨0, 0⟩, valid := ones }

def wM (src : Nat) : State :=
  on check { task with v := [(1, image src), (2, 2 ^ 32)], arr := arr, gaD := ⟨some ⟨0, 0⟩, [], [], none⟩ }

/-- A configuration image with source `src`: one K block, its endpoints T in b2 (GS) at 0x40000 and S in b1 (LS). -/
def imageBus (src : Nat) : VReg :=
  BitVec.ofNat 16384 ((image src).toNat + (2 ^ 56 + if src = 4 then 2 * 2 ^ 52 else 0) * 2 ^ 64 + (if src = 3 then 0 else 2 * 2 ^ 59 + 0x40000) * 2 ^ 128 +
    (if src = 2 then 0 else 1 * 2 ^ 59) * 2 ^ 192 + (if src = 3 then 0 else 1) * 2 ^ 256)

/-- A record: BASE, EXTENT, SPACE; STRIDE1 64, every right, tile rows of 64 bytes, TRAP. -/
def recOf (base extent space : Nat) : Rec :=
  ⟨BitVec.ofNat 256 (base * 2 ^ 192 + extent * 2 ^ 152 + 64 * 2 ^ 120 + 7 * 2 ^ 79 + space * 2 ^ 74 + 2 ^ 67), true, false⟩

/-- A check core with such an image, whose open block may be in tile `z`, and with the groups of its tower's buses. -/
def wMB (src : Nat) (blk : Option Block) (valid : List Bool) (buses : List BusGrp) : State :=
  let k : Task := { task with
    v := [(1, imageBus src)], b := [(1, recOf 0 0x10000 0), (2, recOf 0 0x100000 1)], arr := { arr with blk := blk, valid := valid } }
  { on check k with buses := buses }

/-- The bus of core 32 held by gang 9, whose member stands on core 33. -/
def wMT (src : Nat) : State :=
  let g : BusGrp := { tower := 0, layer := busLayer 32, cluster := busCluster 32, gang := 9, slice := none, ahead := []
                      members := [⟨9, none, none, 0, false, false⟩] }
  let s := wMB src none ones [g]
  { s with cores := s.cores ++ [(coreKey (.core 0 33), { CoreSt.reset 33 with live := true, task := { task with num := 9 } })] }

/-- A task none of whose tiles is valid. -/
def wN : State := on check { task with arr := { Arr.zero with valid := [] } }

theorem witness_MatrixSetup :
    ready (.mcfg h0 ⟨2, 1, 0, 0, 0, 0⟩) (wM 0) = true ∧ imageOk (image 0).toNat = true ∧ imageOk (image 1).toNat = true ∧
    (arrayA 0 0).isSome = true ∧ (arrayB 13 0).isSome = true ∧ (curTask (wM 0)).arr.blk = none ∧ (curTask (wM 1)).arr.x.length = 8 ∧
    ready (.mcfg h0 ⟨2, 1, 0, 0, 0, 0⟩) (wM 1) = true ∧ ready (.mcfg h0 ⟨2, 2, 0, 0, 0, 0⟩) (wM 0) = true ∧ imageOk (2 ^ 32) = false ∧
    ready (.mpush h0 ⟨7, 1, 0, 7, 0, 0⟩) (wM 0) = true ∧ tileValid arr 7 = true ∧ arr.afmt = some (gaFormat (curTask (wM 0))) ∧
    ready (.mpush h0 ⟨7, 1, 0, 7, 0, 0⟩) wN = true ∧ tileValid (curTask wN).arr 7 = false ∧
    ready (.mpush h0 ⟨7, 1, 0, 7, 0, 0⟩) (on check { task with arr := { arr with afmt := none } }) = true ∧
    tilePoison (curTask (wM 0)) 7 = none ∧ closing true (wM 0) = .done (wM 0) := by decide +kernel

/-- MCFG over an open block of other formats, in a tile that is valid and in one that is not; MCFG of the sources 2 to 4, whose checks
pass, whose bus is free or held by another gang on its cores, and whose S lies elsewhere. -/
theorem witness_bus_setup :
    (let s := wMB 0 (some ⟨1, [], 0⟩) ones []
     ready (.mcfg h0 ⟨2, 1, 0, 0, 0, 0⟩) s = true ∧ (curTask s).arr.bfmt ≠ arrayB 13 0 ∧
     (match closing true s with | .done t => (curTask t).arr.blk.isNone | _ => false) = true) ∧
    (let s := wMB 0 (some ⟨1, [], 0⟩) [] []
     ready (.mcfg h0 ⟨2, 1, 0, 0, 0, 0⟩) s = true ∧ tileValid (curTask s).arr 1 = false) ∧
    [2, 3, 4].all (fun src =>
      let s := wMB src none ones []
      let v := (imageBus src).toNat % 2 ^ 512
      ready (.mcfg h0 ⟨2, 1, 0, 0, 0, 0⟩) s && imageOk v && !cfgPending s v &&
        (match arrayB 13 0 with
         | some bf => (placeCfg s (imageCfg v bf s.nextId)).isOk && (placeCfg (wMT src) (imageCfg v bf 0)).isOk
         | none => false) && !busTaken s 0 32 (gangLead (curTask s)) && ready (.mcfg h0 ⟨2, 1, 0, 0, 0, 0⟩) (wMT src) &&
        busTaken (wMT src) 0 32 (gangLead (curTask (wMT src)))) = true ∧ coreLayer 32 = 1 ∧
    (match arrayB 13 0 with
     | some bf => (placeCfg (on check { task with b := [(1, recOf 0 64 0), (2, recOf 0 0x100000 1)] })
         (imageCfg ((imageBus 4).toNat % 2 ^ 512) bf 0)).isOk
     | none => true) = false := by decide +kernel

theorem witness_ZeroTile :
    ready (.mzero h0 ⟨7, 0, 0, 0, 0, 0⟩) (wM 0) = true ∧ (curTask (wM 0)).arr.z.length = 8 ∧ (curTask (wM 0)).arr.valid.length = 8 ∧
    predicateHolds (curTask (wM 0)) h0 = true ∧ hasFeature (wM 0) (slotFeature 6) = true := by decide +kernel

/-- A bus of one member with an epoch of one K block. -/
def busOf1 : BusGrp :=
  { tower := 0, layer := 1, cluster := 0, gang := 5, slice := none, ahead := []
    members := [⟨5, some ⟨[2 ^ 56, 0, 0, 0], 2, 4, tmFlat 0 0, 0, [], 0⟩, none, 0, false, false⟩] }

def wB : State :=
  { on check { task with arr := { arr with blk := some ⟨1, [], 0⟩ } } with buses := [busOf1] }

theorem witness_MatrixBeats :
    ready (.mshf h0 ⟨0, 0, 0, 0, 0, 0⟩) wB = true ∧ ready (.macch h0 ⟨0, 0, 0, 3, 0, 0⟩) wB = true ∧
    ready (.macc h0 ⟨0, 0, 0, 3, 0, 0⟩) wB = true ∧ beatHeld wB check = false ∧ (nextSlice 1 wB).isOk = true ∧
    ready (.mshf h0 ⟨0, 0, 0, 0, 0, 0⟩) (on check task) = true ∧ ready (.macc h0 ⟨0, 0, 0, 0, 0, 0⟩) (on check task) = true ∧
    ready (.macch h0 ⟨0, 0, 0, 0, 0, 0⟩) (on check task) = true ∧ (curTask wB).arr.blk = some ⟨1, [], 0⟩ ∧
    (curTask wB).arr.z.length = 8 := by decide +kernel

theorem witness_MatrixDrain :
    ready (.mdrn h0 ⟨1, 9, 0, 30, 10, 8⟩) wB = true ∧ ready (.mdrn h0 ⟨1, 9, 2, 0, 10, 3⟩) wB = true ∧
    tileValid (curTask wB).arr 1 = true ∧ tilePoison (curTask wB) 1 = none ∧ closing false wB = .done wB ∧
    ready (.mdrn h0 ⟨1, 9, 0, 0, 0, 0⟩) wN = true ∧ tileValid (curTask wN).arr 1 = false := by decide +kernel

/-! ### Witnesses: memory -/

/-- A handle of the page at VA 0 in TM of tower 0, with every right. -/
def hnd : Handle := ⟨BitVec.ofNat 128 (2 ^ 127 + 15 * 2 ^ 114), 0⟩

/-- b1 in LS, b2 in GS, b3 in handle space through h4, which a check core of tower 0 has. -/
def memTask : Task :=
  { task with b := [(1, recOf 0 0x10000 0), (2, recOf 0 0x10000 1), (3, recOf 0 0x10000 2)], h := [(4, hnd)], s := [(9, 8)] }

def wA : State := on check memTask

/-- The runs of a list of checked accesses, or none. -/
def runsOf (e : Except FaultInfo (List (Ask × List Run))) : List (List Run) :=
  match e with
  | .ok l => l.map Prod.snd
  | .error _ => []

/-- Scalar forms: the last 8 bytes of EXTENT, a byte, and the post-increment form. -/
def mf (b hn : Nat) (scope : BitVec 3) : MemF := ⟨0x305, BitVec.ofNat 5 b, BitVec.ofNat 5 hn, 9, 0, scope, 0x1FFE⟩

theorem witness_ScalarAccess :
    [(7, 1, 0), (8, 2, 0), (9, 3, 4)].all (fun (x : Nat × Nat × Nat) => [0, 4].all (fun (sc : BitVec 3) =>
      [Kind.load, .store].all (fun k => (runsOf (checkAsks wA x.1 [scalarAsk x.1 k memTask (mf x.2.1 x.2.2 sc) 0x1FFE])).length == 1))) =
      true ∧
    [0, 4].all (fun sc =>
      [Instr.ld h0 (mf 1 0 sc), .ldz h0 (mf 1 0 sc), .st h0 (mf 1 0 sc), .gld h0 (mf 2 0 sc), .gldz h0 (mf 2 0 sc), .gst h0 (mf 2 0 sc),
        .wld h0 (mf 3 4 sc), .wldz h0 (mf 3 4 sc), .wst h0 (mf 3 4 sc)].all (fun i => ready i wA)) = true ∧
    runsOf (checkAsks wA 7 [scalarAsk 7 .load memTask (mf 1 0 0) 0x1FFE]) = [[⟨0, lsFlat 0 32 0xFFF8, 8⟩]] ∧ wA.acc = [] := by
  decide +kernel

def vf (b hn : Nat) (rc : BitVec 3) : MemF := ⟨632, BitVec.ofNat 5 b, BitVec.ofNat 5 hn, 0, 0, rc, 0x10⟩

theorem witness_VectorAccess :
    [0, 3].all (fun rc =>
      [Instr.vld h0 (vf 1 0 rc), .tld h0 (vf 1 0 rc), .vst h0 (vf 1 0 rc), .tst h0 (vf 1 0 rc), .gvld h0 (vf 2 0 rc), .gtld h0 (vf 2 0 rc),
        .gvst h0 (vf 2 0 rc), .gtst h0 (vf 2 0 rc), .wvld h0 (vf 3 4 rc), .wtld h0 (vf 3 4 rc), .wvst h0 (vf 3 4 rc), .wtst h0 (vf 3 4 rc)].all
        (fun i => ready i wA) &&
      [(7, 1, 0), (8, 2, 0), (9, 3, 4)].all (fun (x : Nat × Nat × Nat) => [Kind.load, .store].all (fun k =>
        (runsOf (checkAsks wA x.1 (vectorAsks x.1 k memTask (vf x.2.1 x.2.2 rc)))).length == 2 ^ rc.toNat &&
        (runsOf (checkAsks wA x.1 (tileAsks x.1 k memTask (vf x.2.1 x.2.2 rc)))).length == 2 ^ rc.toNat))) = true := by decide +kernel

theorem witness_StoreEffect :
    Sound wA ∧ writable (lsFlat 0 32 0xFFF8 + 7) = true ∧
    (let rs : List Run := [⟨0, lsFlat 0 32 0, 64⟩, ⟨64, lsFlat 0 32 128, 64⟩]
     rs[0]? = some ⟨0, lsFlat 0 32 0, 64⟩ ∧ lsFlat 0 32 0 + 63 < lsFlat 0 32 128 ∧ rs[1]? = some ⟨64, lsFlat 0 32 128, 64⟩ ∧ rs[2]? = none) :=
  ⟨rfl, by decide +kernel, rfl, by decide +kernel, rfl, rfl⟩

theorem witness_AtomicResults :
    (List.range 9).all (fun op =>
      [Instr.amo h0 ⟨0x305, 1, 0, 9, 0, 0, BitVec.ofNat 17 (op * 2 ^ 13)⟩, .gamo h0 ⟨0x305, 2, 0, 9, 0, 0, BitVec.ofNat 17 (op * 2 ^ 13)⟩,
        .wamo h0 ⟨0x205, 3, 4, 9, 3, 4, BitVec.ofNat 17 (op * 2 ^ 13)⟩].all (fun i => ready i wA)) = true ∧
    [Instr.cas h0 ⟨0x33E, 1, 0, 9, 0, 0, 1⟩, .gcas h0 ⟨0x305, 2, 0, 9, 2, 0, 1⟩, .wcas h0 ⟨0x305, 3, 4, 9, 0, 0, 1⟩].all (fun i => ready i wA) =
      true ∧
    runsOf (checkAsks wA 7 [scalarAsk 7 .atomic memTask ⟨0x305, 1, 0, 9, 0, 0, 0⟩ 0]) = [[⟨0, lsFlat 0 32 8, 8⟩]] ∧
    (runsOf (checkAsks wA 8 [scalarAsk 8 .atomic memTask ⟨0x305, 2, 0, 9, 0, 0, 0⟩ 0])).length = 1 ∧
    (runsOf (checkAsks wA 9 [scalarAsk 9 .atomic memTask ⟨0x205, 3, 4, 9, 0, 0, 0⟩ 0])).length = 1 ∧
    poisonAt wA (scalarAsk 7 .atomic memTask ⟨0x305, 1, 0, 9, 0, 0, 0⟩ 0) [⟨0, lsFlat 0 32 8, 8⟩] = none := by decide +kernel

/-- An atomic by MGL on its way, as its one event comes. -/
def wAt : State := result (exec (.gamo h0 ⟨0x305, 2, 0, 9, 0, 0, 0⟩) wA)

theorem witness_atomic_at_home :
    wAt.acc.length = 1 ∧ Memory.wf wAt.mem = true ∧ wAt.freeing = [] ∧
    wAt.acc.all (fun x => (match x.op, x.grans with
      | .atomic _ _ n _ _, [g] => decide (n ≤ 8) && decide (g.len = n) && granFree wAt x g && !badRange wAt g.adr n &&
          (List.range n).all (fun i => writable (g.adr + i))
      | _, _ => false) && decide (x.slot ≠ 7) && (mates wAt x).isEmpty && x.bad.isNone && stillThere wAt x.who x.num) = true := by
  decide +kernel

theorem witness_OrderingEntries :
    [Instr.mark h0 ⟨0, 0, 0, 0, 0, 0, 0⟩, .gmark h0 ⟨0, 0, 0, 0, 0, 0, 0⟩, .wmark h0 ⟨0, 0, 0, 0, 0, 0, 0⟩, .fence h0 ⟨0, 0, 0, 1⟩,
      .fence h0 ⟨0, 0, 0, 18⟩, .fence h0 ⟨0, 0, 0, 19⟩].all (fun i => ready i wA) = true := by decide +kernel

/-- R200, R310: a gathered row of eight-bit integers, and its exponent, zero. -/
def wG : State :=
  on check { memTask with gaI := { fmt := some ⟨0, 0⟩, recd := 1, offs := (List.range 64).map (fun j => 32 * j) } }

theorem witness_GatherResults :
    ready (.gidx h0 ⟨0, 0, 639, 31, 0, 13, 6⟩) wG = true ∧ ready (.gath h0 ⟨3, 0, 0, 0, 0, 0, 0⟩) wG = true ∧
    (curTask wG).gaI.fmt = some ⟨0, 0⟩ ∧ recPending wG check 5 1 = false ∧ poisonOf (curTask wG) (.record 1) = none ∧
    (runsOf (checkAsks wG 5 (gatherAsks (recReg (curTask wG) 1) ⟨0, 0⟩ (curTask wG).gaI.offs))).length = 32 ∧ wG.acc = [] := by
  decide +kernel

/-- An object table of context 3 at TM 0 of tower 0 whose entry 0 is valid. -/
def wO : State :=
  { on check { task with s := [(9, 0x1_0000)] } with
    towers := [(0, { TowerSt.reset with otroot := [(3, 2 ^ 63)] })], mem := [(tmFlat 0 2, 8)]
    cores := [(coreKey check, { CoreSt.reset 32 with live := true, task := { task with s := [(9, 0x1_0000)] }, tc := [⟨3, 0, 1, 0⟩] })] }

theorem witness_RecordAndHandle :
    ready (.bld h0 ⟨0, 31, 0, 0, 0, 0, 0⟩) wO = true ∧ bit (readNat wO (tmFlat 0 0) 4) 19 = true ∧ lostAt wO (tmFlat 0 0) = false ∧
    ready (.bld h0 ⟨0, 31, 0, 9, 0, 0, 0⟩) wO = true ∧ (65536 : Int) ≤ (scalarIn (curTask wO) 9).toInt ∧
    ready (.bld h0 ⟨0, 31, 0, 0, 0, 0, -1⟩) wO = true ∧ ready (.bld h0 ⟨0, 31, 0, 0, 0, 0, 0⟩) wA = true ∧
    ready (.xlate h0 ⟨0, 0, 31, 9, 0, 0, 0⟩) wO = true ∧ canonical 0x1_0000 = true ∧
    tcFind 3 0x1_0000 (getCore wO check).tc = some ⟨3, 0, 1, 0⟩ ∧ canonical 0x8000_0000_0000_0000 = false ∧
    ready (.xlate h0 ⟨0, 0, 31, 9, 0, 0, 0⟩) (on check (withS 9 0x8000_0000_0000_0000)) = true := by decide +kernel

/-! ### The page walk worked out after R77 -/

/-- The tables of the example of R77, for context 3 on tower 5. -/
def wP : State :=
  let m := [(0x1_0000_0000, 0x4400_0001_0000_4000), (0x1_0000_6468, 0x4400_0001_0000_8000), (0x1_0000_8158, 0x4400_0001_0000_9000),
    (0x1_0000_9038, 0x8A00_0003_8042_C000)].foldl
      (fun (m : List Host.Cell) (x : Nat × Nat) => cellsWrite m (tmFlat 2 x.1) (leBytes 8 x.2)) []
  { on (.core 5 0) (withS 9 0x0000_0123_4567_89AB) with
    mem := m, towers := [(5, { TowerSt.reset with vroot := [(3, 0xA000_0001_0000_0000)] })] }

/-- A state in which the acting core has missed an address and the walk has made its four loads. -/
def walked (s : State) (va : Word) : State :=
  (List.range 4).foldl (fun u _ => walkStep u s.nextId) (askWalk s s.cur (curTask s).ctx va false)

/-- R77: the walk of the example ends at page 66 of spire 7 of tower 5, and XLATE makes a handle with tag 0 of it. -/
theorem test_page_walk :
    walk wP 5 3 0x0000_0123_4567_89AB = some (0, 0x8A00_0003_8042_C000) ∧
    translate wP (.core 5 0) 3 0x0000_0123_4567_89AB = .miss ∧
    translate (walked wP 0x0000_0123_4567_89AB) (.core 5 0) 3 0x0000_0123_4567_89AB = .hit ⟨3, 0, 0x1234567, 0x8A00_0003_8042_C000⟩ ∧
    ready (.xlate h0 ⟨0, 0, 31, 9, 0, 0, 0⟩) wP = true ∧ tcFind 3 0x0000_0123_4567_89AB (getCore wP (.core 5 0)).tc = none ∧
    (getTower wP 5).fmr.getLsbD 0 = false ∧
    (let k := commitAll (curTask (result (exec (.xlate h0 ⟨0, 0, 31, 9, 0, 0, 0⟩) (walked wP 0x0000_0123_4567_89AB))))
     handleTag 5 (mapGet ⟨0, 0⟩ k.h 31) = 0 ∧ (mapGet ⟨0, 0⟩ k.h 31).phys = 0x3_8042_0000) := by
  decide +kernel

/-- The walk of the example before its last load, which the next step makes. -/
def wLast : State :=
  { (List.range 3).foldl (fun u _ => walkStep u wP.nextId) (askWalk wP wP.cur 3 0x0000_0123_4567_89AB false) with moves := [.walkStep wP.nextId] }

theorem witness_walk_step :
    wLast.inputs = [] ∧ wLast.walks.all (fun w =>
      decide (w.id = wP.nextId) && w.done.isNone && w.running && w.met.isEmpty && decide (w.who = [.core 5 0]) &&
        (match tableLevels[w.level]? with
         | some b => !spireHeld wLast (walkEntry b w.table (w.region.toNat * 2 ^ 16)) &&
             (match walkLoad { wLast with moves := [] } b w.table (w.region.toNat * 2 ^ 16) with
              | .error (.leaf 0 0x8A00_0003_8042_C000) => true
              | _ => false)
         | none => false)) = true ∧ wLast.walks.length = 1 := by decide +kernel

/-! ### Witnesses: copies and commands -/

/-- Endpoints in b1 (LS) and b2 (GS), a shape of 4 rows of 4 lines, a flag word, a time. -/
def wC : State :=
  { on check { memTask with s :=
      [(20, 0), (21, 1 * 2 ^ 59), (22, 2 * 2 ^ 59 + 0x1000), (23, 8 * 2 ^ 42 + 4 * 2 ^ 20 + 4 * 2 ^ 10 + 4), (24, 1 * 2 ^ 59 + 0x8000),
        (25, 50), (26, 3), (27, 0)] } with pkg := { PkgSt.reset with cyc := 50 } }

theorem witness_copy_start :
    ready (.cpy h0 ⟨20, 21, 22, 23, 0, 0⟩) wC = true ∧ ready (.cpy h0 ⟨20, 21, 22, 23, 24, 1⟩) wC = true ∧
    [(21 : BitVec 7), 22, 24].all (fun r => !endPending wC (scalarIn (curTask wC) r) && (endPoison wC (scalarIn (curTask wC) r) 10).isNone) =
      true ∧
    (checkCopy wC ⟨20, 21, 22, 23, 0, 0⟩ false).isOk = true ∧ (checkCopy wC ⟨20, 21, 22, 23, 24, 1⟩ true).isOk = true ∧
    64 * shapeLen (scalarIn (curTask wC) 23) * shapeRows (scalarIn (curTask wC) 23) = 1024 ∧
    ready (.cpyt h0 ⟨20, 21, 22, 23, 25, 0⟩) wC = true ∧ (scalarIn (curTask wC) 25).toNat ≤ wC.pkg.cyc.toNat ∧
    wC.pkg.cyc.toNat < (scalarIn (curTask wC) 24).toNat ∧ ready (.cpyt h0 ⟨20, 21, 22, 23, 24, 0⟩) wC = true ∧
    frontEnd wC check < 32 := by decide +kernel

/-- Thirty-two timed copies wait in the front end of the core. -/
def lateJob (n : Nat) : Job :=
  { id := n, who := check, num := 5, tok := 0, born := 0, kind := .pxfer ⟨0, 0, 0, ⟨0, true, false⟩, none⟩ 0 0 1 none, chunks := 1,
    landed := 0, failed := 0, causes := [], waiting := true, after := [] }

/-- The state after the copy has left its bundle, and after the timed one has. -/
def wJ : State := result (exec (.cpy h0 ⟨20, 21, 22, 23, 0, 0⟩) wC)
def wK : State := result (exec (.cpyt h0 ⟨20, 21, 22, 23, 24, 0⟩) wC)

def isCopy (j : Job) : Bool :=
  match j.kind with
  | .copy _ _ 4 4 _ _ => true
  | _ => false

theorem witness_copy_progress :
    wJ.jobs.all (fun j => isCopy j && jobFree wJ j && decide (j.chunks = 2) && decide ((j.landed ||| j.failed) = 0) &&
      (wJ.jobs.find? (fun x => x.id = j.id) == some j)) = true ∧ wJ.jobs.length = 1 ∧ wJ.zero = [] ∧ wJ.bad = [] ∧ wJ.acc = [] ∧
    wK.jobs.all (fun j => isCopy j && j.waiting && !savedTask wK j.num &&
      (wK.jobs.find? (fun x => x.id = j.id && x.waiting) == some j)) = true ∧ wK.jobs.length = 1 ∧ Memory.wf wJ.mem = true ∧ Memory.wf wK.mem = true := by
  decide +kernel

/-- R283, R286: a copied chunk arrives: 0x5A at the first byte of the source, with 8 lines of a chunk. -/
theorem test_copy_lands :
    let s := { wJ with mem := [(lsFlat 0 32 0, 0x5A)] }
    let t := result (exec (.chunkLand (wJ.jobs.map Job.id).head! 0 .none) s)
    readByte t 0x1000 = 0x5A ∧ t.jobs.map Job.landed = [1] := by decide +kernel

/-- A copy of no chunks, with and without a completion word, and a timed one whose time has come. -/
theorem witness_copy_empty :
    [Instr.cpy h0 ⟨20, 21, 22, 27, 0, 0⟩, .cpy h0 ⟨20, 21, 22, 27, 24, 1⟩, .cpyt h0 ⟨20, 21, 22, 27, 25, 0⟩].all (fun i => ready i wC) = true ∧
    (checkCopy wC ⟨20, 21, 22, 27, 0, 0⟩ false).isOk = true ∧ (checkCopy wC ⟨20, 21, 22, 27, 24, 1⟩ true).isOk = true ∧
    shapeLen (scalarIn (curTask wC) 27) = 0 ∧ wC.freeing = [] ∧ Sound wC ∧ stillThere wC check 5 = true :=
  ⟨by decide +kernel, by decide +kernel, by decide +kernel, by decide +kernel, rfl, rfl, by decide +kernel⟩

/-- A copy whose first chunk has landed and whose last is to come, with no error and with one in its source; its lines lie apart. -/
def wLast1 (bad : List Nat) : State := { wJ with jobs := wJ.jobs.map (fun j => { j with landed := 1 }), bad := bad }

/-- Do the lines of a copy's chunk lie apart, and is nothing of them held? -/
def linesApart (s : State) (j : Job) (i : Nat) : Bool :=
  match j.kind with
  | .copy src dst rows len w _ =>
    let l := chunkLines (64 * len * rows) i
    !chunkHeld s j.who src dst rows len i && w.isNone && decide (j.parts = []) &&
      l.all (fun n => !lostAt s (endByte dst len n) && l.all (fun m => !rangesMeet (endByte dst len n, 64) (endByte src len m, 64) &&
        (decide (m = n) || !rangesMeet (endByte dst len n, 64) (endByte dst len m, 64))))
  | _ => false

theorem witness_copy_ends :
    (wLast1 []).jobs.all (fun j => decide ((j.landed ||| j.failed) = 1) && linesApart (wLast1 []) j 1) = true ∧
    wJ.jobs.all (fun j => linesApart wJ j 0) = true ∧ (wLast1 []).bad = [] ∧ (wLast1 []).freeing = [] ∧
    (wLast1 [lsFlat 0 32 (2 * 512) / 8]).jobs.all (fun j => match j.kind with
      | .copy src _ rows len _ _ =>
        (firstBad (wLast1 [lsFlat 0 32 (2 * 512) / 8]) ((chunkLines (64 * len * rows) 1).map (endByte src len))).isSome
      | _ => false) = true ∧
    (let s := { wK with jobs := wK.jobs.map (fun j => match j.kind with
        | .copy src dst rows len w _ => { j with kind := .copy { src with recBits := { src.recBits with revoked := true } } dst rows len w 0 }
        | _ => j) }
     s.jobs.all (fun j => match j.kind with
       | .copy src _ _ _ _ time => decide (endStale src = some .rights) && decide (time.toNat ≤ s.pkg.cyc.toNat)
       | _ => false) = true ∧ s.freeing = [] ∧ savedTask s 5 = false) := by decide +kernel

theorem witness_copy_full : 32 ≤ frontEnd { wC with jobs := (List.range 32).map lateJob } check := by decide +kernel

def wW : State := { wJ with jobs := wJ.jobs.map (fun j => { j with landed := 2, failed := 1, causes := [(0, .bounds, 7)] }) }

theorem witness_CopyWait :
    ready (.waitc h0 ⟨20, 26, 0, 0, 0, 0⟩) wC = true ∧ (myJobs wC check 5).find? (fun j => j.tok = 20) = none ∧
    (curTask wC).waitTok = none ∧ ready (.waitc h0 ⟨20, 26, 0, 0, 0, 0⟩) wJ = true ∧
    (myJobs wJ check 5).map (fun j => (j.tok, j.landed ||| j.failed, chunkMask j)) = [(20, 0, 3)] ∧
    ready (.waitc h0 ⟨20, 26, 0, 0, 0, 0⟩) wW = true ∧
    (myJobs wW check 5).map (fun j => (j.tok, j.landed ||| j.failed, firstFailed 3 j.causes)) = [(20, 3, some (0, .bounds, 7))] ∧
    ready (.waitc h0 ⟨20, 20, 0, 0, 0, 0⟩) wW = true := by
  decide +kernel

/-- Its token was released while it waited, with chunk 1 failed. -/
def wTold : State := modTask wC (fun k => { k with waitTok := some 20, tokFail := [(1, .bounds, 7)] })

theorem witness_wait_told :
    ready (.waitc h0 ⟨20, 26, 0, 0, 0, 0⟩) wTold = true ∧ (myJobs wTold check 5).find? (fun j => j.tok = 20) = none ∧
    (curTask wTold).waitTok = some 20 ∧ firstFailed 3 (curTask wTold).tokFail = some (1, .bounds, 7) ∧
    firstFailed 1 (curTask wTold).tokFail = none := by decide +kernel

/-- A transfer of 64 bytes to GS address 0 of chip 2, which grant 0 of the window allows to context 3; the chip's landing entry 0
lets chip 2 write there. -/
def wX : State :=
  { on check { memTask with s := [(10, 0), (11, 1 * 2 ^ 59), (12, 2 * 2 ^ 60), (13, 1), (14, 7 * 2 ^ 32 + 0x40)] } with
    pkg := { PkgSt.reset with
      window := [(0x2000, 2 ^ 63 + 3 * 2 ^ 48 + 2 * 2 ^ 44), (0x2008, 0x100), (0x3000, 2 ^ 63 + 2 * 2 ^ 44), (0x3008, 0x100)]
      links := setAt PkgSt.reset.links 1 ⟨true, 2⟩ } }

theorem witness_PeerTransfer :
    ready (.pxfer h0 ⟨10, 11, 12, 13, 0, 0⟩) wX = true ∧ ready (.pxfer h0 ⟨10, 11, 12, 13, 14, 1⟩) wX = true ∧
    endPending wX (1 * 2 ^ 59) = false ∧ endPoison wX (1 * 2 ^ 59) 10 = none ∧ (checkPeer wX ⟨10, 11, 12, 13, 0, 0⟩).isOk = true ∧
    (checkPeer wX ⟨10, 11, 12, 13, 14, 1⟩).isOk = true ∧ (wX.pkg.links.getD 1 ⟨false, 0⟩).up = true ∧ Memory.wf wX.mem = true ∧
    peerCovers wX 0x3000 none 2 0 64 = true ∧ peerCovers wX 0x3000 none 2 0x200 64 = false ∧ pageHeld wX 0 64 = false ∧
    ready (.pxfer h0 ⟨10, 11, 12, 10, 0, 0⟩) wX = true ∧ (checkPeer wX ⟨10, 11, 12, 10, 0, 0⟩).isOk = true ∧
    ready (.pxfer h0 ⟨10, 11, 12, 10, 14, 1⟩) wX = true ∧ (checkPeer wX ⟨10, 11, 12, 10, 14, 1⟩).isOk = true ∧ wX.freeing = [] ∧
    peerCovers wX 0x3000 none 2 0xF8 8 = true ∧ peerCovers wX 0x3000 none 2 0x100 8 = false ∧ pageHeld wX 0xF8 8 = false := by
  decide +kernel

/-- A request word of tower 0 in s30, block endpoints in b1, counts, and for the supervisor core the assist word. -/
def cmdS : FMap Word :=
  [(1, 1), (2, 2), (3, 3), (4, 4), (5, 5), (6, 6), (30, 2 ^ 61), (31, 1 * 2 ^ 59), (32, 1 * 2 ^ 32 + 7), (33, 2 ^ 63 + 5), (34, 64), (35, 3 * 2 ^ 59)]

def wQ : State := on check { memTask with s := cmdS }

def wR : State := on boss { memTask with s := cmdS }

theorem witness_CommandResults :
    [Instr.sqopen h0 ⟨20, 31, 0, 0, 0, 0⟩, .sqclose h0 ⟨20, 30, 0, 0, 0, 0x3FFF⟩, .sqnode h0 ⟨20, 30, 6, 5, 0, 1⟩, .sqchk h0 ⟨20, 30, 31, 32, 0, 1⟩,
      .sqacc h0 ⟨20, 30, 31, 5, 0, 1⟩, .sqsave h0 ⟨20, 30, 5, 0, 0, 1⟩, .sqrst h0 ⟨20, 5, 0, 0, 0, 1⟩, .kvgrow h0 ⟨20, 30, 5, 5, 0, 1⟩,
      .kvcommit h0 ⟨20, 30, 5, 0, 0, 1⟩, .kvroll h0 ⟨20, 30, 5, 0, 0, 1⟩, .kvexport h0 ⟨20, 30, 31, 5, 0, 1⟩, .kvpoolPin h0 ⟨20, 2, 30, 5, 0, 1⟩,
      .kvpoolUnpin h0 ⟨20, 3, 30, 5, 0, 1⟩, .pfxlook h0 ⟨20, 30, 31, 34, 0, 1⟩, .pfxins h0 ⟨20, 30, 31, 5, 0, 1⟩,
      .pfxpin h0 ⟨20, 30, 5, 0, 0, 1⟩].all (fun i => ready i wQ) = true ∧
    [Instr.sqaccAssistComplete h0 ⟨20, 30, 0, 33, 0, 7⟩, .sqaccAssistComplete h0 ⟨20, 30, 0, 33, 35, 0⟩, .kvpoolEnable h0 ⟨20, 0, 5, 6, 5, 1⟩,
      .kvpoolDisable h0 ⟨20, 1, 5, 0, 0, 1⟩, .kvpoolSetent h0 ⟨20, 4, 30, 5, 0, 1⟩, .kvpoolAlloc h0 ⟨20, 5, 5, 1, 0, 1⟩,
      .kvpoolFree h0 ⟨20, 6, 5, 1, 5, 1⟩, .pfxinsAssistComplete h0 ⟨20, 30, 0, 33, 0, 1⟩, .stcfgConfigure h0 ⟨20, 0, 35, 5, 0, 1⟩,
      .stcfgDisable h0 ⟨20, 1, 0, 5, 0, 1⟩, .stcfgEvict h0 ⟨20, 2, 0, 5, 0, 1⟩, .stcfgRestore h0 ⟨20, 3, 0, 5, 0, 1⟩].map (fun i => ready i wR) =
      List.replicate 12 true ∧
    [(64, 64), (8, 1), (128, 64), (128, 1)].all (fun (x : Nat × Nat) => (checkBlock wQ 10 .load x.1 x.2 false false (1 * 2 ^ 59)).isOk) = true ∧
    (checkBlock wQ 10 .store 128 128 true true (1 * 2 ^ 59)).isOk = true ∧ (checkBlock wQ 10 .store 512 512 true false (1 * 2 ^ 59)).isOk = true ∧
    (checkBlock wQ 10 .load (128 * 64) 64 false false (1 * 2 ^ 59)).isOk = true ∧ endPending wQ (1 * 2 ^ 59) = false ∧
    endPoison wQ (1 * 2 ^ 59) 10 = none ∧ (2 ^ 61 / 2 ^ 11 % 2 ^ 50 = 0) := by decide +kernel

/-- SQCLOSE of a request that is not open: its chunk answers BOUND. -/
def wQ1 : State := result (exec (.sqclose h0 ⟨20, 30, 0, 0, 0, 3⟩) wQ)

def isFinished (o : CmdOut) : Bool :=
  match o with
  | .done s _ _ => Memory.wf s.mem
  | _ => false

theorem witness_command_reply :
    wQ1.jobs.map (fun j => (j.chunks, jobFree wQ1 j)) = [(1, true)] ∧
    wQ1.jobs.all (fun j => match j.kind with
      | .cmd c => isFinished (performCmd wQ1 j c) && (cmdReads c).isEmpty && !cmdHeld wQ1 c && !(getTower wQ1 (cmdTower j c)).inReset && !wQ1.jobs.any (cmdBlocked wQ1 j c)
      | _ => false) = true ∧ wQ1.freeing = [] ∧ writable (lsFlat 0 32 (64 * 3)) = true := by decide +kernel

/-- SQOPEN of a block that is lost, and SQCLOSE of a record that is. -/
theorem witness_command_fails :
    let s0 := result (exec (.sqopen h0 ⟨20, 31, 0, 0, 0, 3⟩) wQ)
    let s := { s0 with bad := [lsFlat 0 32 0 / 8] }
    let u := { wQ1 with bad := [reqAdr 1 0 / 8] }
    s.jobs.length = 1 ∧ s.jobs.all (fun j => jobFree s j && decide (j.landed = 0) && (match j.kind with
      | .cmd c => (cmdReads c).any (fun q => (firstLost s q.1 q.2).isSome) && !cmdHeld s c && !s.jobs.any (cmdBlocked s j c)
      | _ => false)) = true ∧ s.freeing = [] ∧
    u.jobs.all (fun j => (match j.kind with
      | .cmd c => (cmdReads c).isEmpty && (match performCmd u j c with | .failed _ => true | _ => false)
      | _ => false)) = true := by decide +kernel

/-- Request 0 of tower 1 open for context 3 in pool 2, with nodes 0 and 1, LEN 16 and TLEN 40, and three pages whose entries stand in
block 0, the last tentative; stream 5 of tower 0 on; entry 7 of a prefix partition of context 3, pinned once. -/
def wReq : State :=
  let r := reqAdr 1 0
  { wQ with
    mem := cellsWrite (memAt' [(r, 2 ^ 63 + 3 * 2 ^ 50 + 2 * 2 ^ 28), (r + 8, 40 * 2 ^ 32 + 16), (r + 0x10, 3 * 2 ^ 48),
      (r + 0x20, 2 * 2 ^ 54 + 5 * 2 ^ 50 + 9), (r + 0x40, 0x8080), (blockAdr 1 0, 2 ^ 63), (blockAdr 1 0 + 8, 2 ^ 63 + 2 ^ 61 + 2 ^ 16),
      (blockAdr 1 0 + 16, 2 ^ 63 + 2 ^ 61 + 2 ^ 17), (partAdr 1 0, 2 ^ 63 + 3 * 2 ^ 35), (pfxAdr 1 7 + 8, 2 ^ 62), (pfxAdr 1 7 + 0x10, 2 ^ 48),
      (streamAdr 0 5, 2 ^ 63)]) (r + 0x80) [0, 0], blocks := [11776] }
where
  /-- Memory with these words of eight bytes. -/
  memAt' (l : List (Nat × Nat)) : List Host.Cell := l.foldl (fun m x => cellsWrite m x.1 (leBytes 8 x.2)) []

/-- A command of core 32's task on it, or of the supervisor core. -/
def aCmd (kind : CmdKind) (a b c : Word) : Cmd :=
  { kind := kind, a := a, b := b, c := c, d := 0, block := 0, block2 := 0, reply := none, crpy := none, ctx := 3, ends := [], mode := none, posted := false }
def aJob (who : Agent) (c : Cmd) : Job :=
  { id := 0, who := who, num := 5, tok := 20, born := 0, kind := .cmd c, chunks := 1, landed := 0, failed := 0, causes := [], waiting := false, after := [] }

/-- What a command comes to: its status and result, or nothing. -/
def comes (s : State) (c : Cmd) (who : Agent := check) : Option (Status × Nat) :=
  match performCmd s (aJob who c) c with
  | .done _ st r => some (st, r)
  | _ => none

/-- R166, R331, R333, R337 to R340: statuses and results worked out from their tables. -/
theorem witness_CommandEffects :
    Memory.wf wReq.mem = true ∧ badRange wReq (reqAdr 1 0) 0x400 = false ∧ reqCtx wReq 1 0 = 3 ∧ reqOpen wReq 1 0 = true ∧ livePages wReq 1 0 = [0, 1, 2] ∧
    (List.range 64).all (fun i => decide (blockOf wReq 1 0 i < 11776) || decide (blockOf wReq 1 0 i = 0xFFFF)) = true ∧
    [aCmd .sqnode (2 ^ 61) (7 * 2 ^ 32 + 1) 9, aCmd .sqnode (2 ^ 61) 2 9, aCmd .sqnode (2 ^ 61) 1 8, aCmd .kvcommit (2 ^ 61) 32 0,
      aCmd .kvcommit (2 ^ 61) 41 0, aCmd .kvroll (2 ^ 61) 16 0, aCmd .kvroll (2 ^ 61) 15 0, aCmd .kvgrow (2 ^ 61) 39 0, aCmd .kvgrow (2 ^ 61) 70000 0,
      aCmd .kvgrow (2 ^ 61) 40 0, aCmd .sqclose (2 ^ 61) 0 0, aCmd .sqclose (2 ^ 61 + 1) 0 0, aCmd .pfxpin (2 ^ 61) 7 0, aCmd .pfxpin (2 ^ 61) (2 ^ 63 + 7) 0,
      aCmd .pfxpin (2 ^ 61) 8 0, aCmd .poolPin 0 (2 ^ 61) 2, aCmd .poolUnpin 0 (2 ^ 61) 2, aCmd .poolPin 0 (2 ^ 61) 3, aCmd .stEvict 0 0 6].map (comes wReq) =
      [some (.ok, 2), some (.range, 0), some (.stale, 0), some (.ok, 32), some (.range, 0), some (.ok, 16), some (.range, 0), some (.range, 0),
        some (.limit, 0), some (.ok, 3), some (.ok, 0), some (.rights, 0), some (.ok, 2), some (.ok, 0), some (.range, 0), some (.ok, 1),
        some (.limit, 0), some (.range, 0), some (.state, 0)] ∧
    comes wReq (aCmd .stDisable 0 0 5) boss = some (.ok, 0) ∧ stOn wReq 0 5 = true := by decide +kernel

/-- Pool 2 of tower 0 enabled for context 3, and an open block in it, ordinary or windowed. -/
def wOpen (win : Nat) : State :=
  { wQ with mem := wReq.memAt' [(poolAdr 0 2, 2 ^ 63 + 3 * 2 ^ 44), (0x1000, win * 2 ^ 63 + 3 * 2 ^ 58 + 2 * 2 ^ 52), (0x1010, 77), (0x1018, win * 4 * 2 ^ 54)] }

theorem witness_sqopen :
    let c : Cmd := { aCmd .sqopen 0 0 0 with block := 0x1000 }
    [0, 1].map (fun win => comes (wOpen win) c) = [some (.ok, 0), some (.ok, 0)] ∧ comes wQ c = some (.badfield, 0) ∧
    comes { wOpen 0 with mem := wReq.memAt' [(0x1000, 3 * 2 ^ 58 + 2 * 2 ^ 52)] } c = some (.badpool, 0) ∧
    comes { wOpen 1 with blocks := List.range 3 } c = some (.ok, 0) ∧ (takeBlock (wOpen 1) 0).map Prod.fst = some 0 := by decide +kernel

/-! ### Witnesses: the AGU slot -/

/-- A run of two by three steps that begins with this bundle; and one whose dimension 1 is indirect, at the first KV page. -/
def runs (ind : Bool) (i : Nat) : Agu :=
  { Agu.zero with count := [2, 3, 1, 1], run := true, gk := 40, gp := 1, idx := [1, i, 0, 0], ind := ind, indd := 1, itab := 0, ilen := 20, iflag := 2 }

/-- A page-table image at offset 0 of the scratchpad: three pages in one block, the second in place, the third in tier 1. -/
def wI (i : Nat) : State :=
  { on draft { task with agu := runs true i } with
    mem := cellsWrite [] (lsFlat 0 0 0) (leBytes 8 (3 + 3 * 2 ^ 16) ++ leBytes 8 0 ++ leBytes 8 (2 ^ 63) ++ leBytes 8 (2 ^ 63 + 2 ^ 62)) }

theorem witness_AguResults :
    [Instr.amov h0 ⟨15, 0, 79, 0⟩, .aadd h0 ⟨15, 0, 5, 0⟩, .aaddi h0 ⟨1, 0, 0, -1⟩, .acfg h0 ⟨0, 3, 5, 0xFFFF⟩, .aind h0 ⟨2, 1, 5, 512⟩,
      .arun h0 ⟨1, 0, 63, 63⟩, .astop h0 ⟨0, 0, 0, 0⟩].all (fun i => ready i wS) = true ∧ (curTask wS).agu.ind = false ∧
    (getCore (on draft { task with agu := runs false 2 }) draft).live = true ∧ (runs false 2).next = task.issued ∧
    [0, 1, 2].all (fun i => !genHeld { wI i with cur := draft }) = true ∧
    runLength (runs false 2).count = 6 ∧ mixed (runs false 2).idx (runs false 2).count = 5 ∧
    [0, 1, 2].map (fun i => let w := i + 1; let s := wI i
      (bits (readNat s (imageFlat s) 8) 15 0, entV (readNat s (imageFlat s + 8 * w) 8), entTier (readNat s (imageFlat s + 8 * w) 8),
        entPgin (readNat s (imageFlat s + 8 * w) 8), badRange s (imageFlat s + 8 * w) 8)) =
      [(3, false, 0, false, false), (3, true, 0, false, false), (3, true, 1, false, false)] := by decide +kernel

/-! ### Witnesses: tasks, time and budgets -/

/-- A supervisor core with register 5 set. -/
def sup (x : Word) : State := on boss (withS 5 x)

theorem witness_TaskStartAndEnd :
    ready (.spawn h0 ⟨6, 5, 0, 0x8FFF⟩) (on check (withS 5 (2 ^ 48 - 1))) = true ∧ ready (.spawn h0 ⟨6, 5, 0, 0x7FFF⟩) (on check task) = true ∧
    ready (.spawn h0 ⟨6, 5, 0, 0x8001⟩) (sup (2 ^ 60 - 1)) = true ∧
    (getTower (on check task) 0).inReset = false ∧ (getTower (sup 0) 0).inReset = false ∧
    (let s := { on check (withS 5 7) with towers := [(0, { TowerSt.reset with inReset := true })] }
     ready (.spawn h0 ⟨6, 5, 0, 0x8FFF⟩) s = true ∧ (getTower s 0).inReset = true) ∧
    ready (.tend h0 ⟨0, 0, 0, 0, 0, 0⟩) (on check task) = true ∧ ready (.svc h0 ⟨6, 5, 0, 0xFFFF⟩) (on check task) = true := by decide +kernel

/-- A gang of three on check cores, member `m` acting, with those that have arrived. -/
def wGang (m : Nat) (arrived passed : List Nat) : State :=
  { on check { task with gang := [5, 6, 7], member := m } with
    gangs := [{ lead := 5, members := [5, 6, 7], ended := [], arrived := arrived, mask := 3, scope := 2, passed := passed, barrier := true }] }

theorem witness_BarrierResults :
    ready (.gbar h0 ⟨0, 0, 0, 2⟩) (on check task) = true ∧ gangOf (on check task) 5 = none ∧
    ready (.gbar h0 ⟨0, 0, 0, 0x302⟩) (wGang 0 [1] []) = true ∧ scopeDrained (wGang 0 [1] []) 2 = true ∧
    (gangOf (wGang 0 [1] []) 5).map (fun g => (g.members.length, g.mask, g.scope, g.arrived)) = some (3, 3, 2, [1]) ∧
    (gangOf (wGang 0 [] []) 5).map (fun g => (g.members.length, g.arrived)) = some (3, []) ∧ scopeDrained (wGang 0 [] []) 2 = true ∧
    ready (.gbar h0 ⟨0, 0, 0, 0x802⟩) (wGang 0 [] []) = true ∧ ready (.gbar h0 ⟨0, 0, 0, 0x102⟩) (wGang 0 [1] []) = true ∧
    (gangOf (wGang 0 [0] [0]) 5).map (fun g => g.passed) = some [0] ∧ (gangOf (wGang 2 [1] []) 5).isSome = true := by decide +kernel

/-- An episode with mask 0, in which one of three has arrived: member 0 waits for member 2. -/
theorem witness_barrier_waits :
    let s := { wGang 0 [1] [] with gangs := (wGang 0 [1] []).gangs.map (fun g => { g with mask := 0 }) }
    ready (.gbar h0 ⟨0, 0, 0, 0x002⟩) s = true ∧ (gangOf s 5).map (fun g => (g.mask, g.arrived, g.ended, g.passed)) = some (0, [1], [], []) := by
  decide +kernel

/-- A member with a load of an earlier bundle under way; one with a macro of an earlier bundle. -/
theorem witness_barrier_drains :
    (let s0 := { wGang 0 [1] [] with acc := (result (exec (.gvld h0 ⟨632, 2, 0, 0, 0, 0, 0x10⟩) (on check { task with
        b := [(2, ⟨BitVec.ofNat 256 (0x10000 * 2 ^ 152 + 64 * 2 ^ 120 + 7 * 2 ^ 79 + 2 ^ 74 + 2 ^ 67), true, false⟩)] }))).acc }
     let s := modTask s0 (fun k => { k with issued := 1 })
     ready (.gbar h0 ⟨0, 0, 0, 0x302⟩) s = true ∧ (gangOf s 5).isSome = true ∧ s.acc.length = 1 ∧
     s.acc.all (fun x => decide (x.who = s.cur) && decide (x.num = 5) && decide (x.born < 1) && isAccess x && homeInScope 3 x) = true) ∧
    (let s := modTask (wGang 0 [1] []) (fun k => { k with issued := 1, macros := [{ kind := .mmt, gen := 0, record := 0, z := 0, block := 0, request := 0, status := 6, bundle := 0, id := 9, born := 0, fail := none, flags := 0, begun := false, step := 0, beat := 0, st := [] }] })
     ready (.gbar h0 ⟨0, 0, 0, 0x302⟩) s = true ∧ (curTask s).macros.all (fun m => decide (m.born ≠ (curTask s).issued)) = true) := by decide +kernel

theorem witness_TimeAndBudget :
    (List.range 4).all (fun n => ready (.rdtime h0 ⟨63, 0, 0, BitVec.ofNat 28 n⟩) wS) = true ∧
    ready (.waittCyc h0 ⟨0, 5, 0, 0⟩) wS = true ∧ ready (.waittTick h0 ⟨0, 5, 6, 1⟩) wS = true ∧
    ready (.budset h0 ⟨4, 5, 0, 0⟩) wS = true ∧ ready (.budset h0 ⟨4, 5, 0, 0⟩) (on check { task with counted := true, tbud := 3 }) = true := by
  decide +kernel

/-! ### Witnesses: system instructions -/

/-- A result of an earlier bundle that can raise a flag is on its way, and one of the reading bundle. -/
def wFps : List State :=
  [0, 1].map (fun b => on check { task with issued := 1, due := [{ due := 6, born := b, slot := 4, dst := .vector none 0, ring := none, flags := 1, poisoned := none }] })

theorem witness_SpecialRegisters :
    [0, 2, 3, 4, 5, 7, 0x10, 0x12, 0x13, 0x14, 0x16, 0x60, 0x61, 0x62, 0x63, 0x64].all (fun n =>
      ready (.mfsr h0 ⟨6, 0, 0, n⟩) wS && (readReg wS check n.toNat).isSome) = true ∧
    [0x16, 0x20, 0x60, 0x61, 0x68, 0x69, 0x6A, 0xC0, 0xC1].all (fun n =>
      ready (.mfsr h0 ⟨6, 0, 0, n⟩) (sup 0) && (readReg (sup 0) boss n.toNat).isSome) = true ∧
    hasFeature wS (slotFeature 11) = true ∧ regMapped false 0xFFF = false ∧ regMapped true 0xFFF = false ∧ regMapped false 0x53 = false ∧
    (curTask wS).macros = [] ∧ (curTask wS).due = [] ∧
    (let s := on check { task with macros := [{ kind := .mmt, gen := 0, record := 0, z := 0, block := 0, request := 0, status := 6, bundle := 0, id := 9, born := 0, fail := none, flags := 0, begun := true, step := 0, beat := 0, st := [] }] }
     ready (.mfsr h0 ⟨7, 0, 0, 0x10⟩) s = true ∧ (curTask s).macros.length = 1) ∧ wFps.all (fun s => ready (.mfsr h0 ⟨6, 0, 0, 0x10⟩) s) = true ∧
    [0, 1, 4, 5, 0x10, 0x11, 0x14, 0x15, 0x61].all (fun n => ready (.mtsr h0 ⟨0, 5, 0, n⟩) wS) = true ∧
    [2, 3, 7, 0x12, 0x13, 0x16, 0x53, 0x64].all (fun n =>
      (Instr.mtsr h0 ⟨0, 5, 0, n⟩).wf && namesLive (curTask wS) (usesOf (.mtsr h0 ⟨0, 5, 0, n⟩))) = true ∧
    [0, 0x20, 0x30, 0x64, 0x68, 0x69, 0x6A].all (fun n => ready (.mtsr h0 ⟨0, 5, 0, n⟩) (sup (2 ^ 12))) = true := by decide +kernel

theorem witness_SystemResults :
    ready (.eret h0 ⟨0, 0, 0, 0⟩) (sup 0) = true ∧ ready (.trap h0 ⟨0, 5, 0, 0xFFFF⟩) wS = true ∧ ready (.trap h0 ⟨0, 5, 0, 0⟩) (sup 0) = true ∧
    ready (.halt h0 ⟨0, 0, 0, 0⟩) (sup 0) = true ∧
    [0, 1, 2, 8, 9, 10, 12, 13, 14].all (fun n => ready (.icinv h0 ⟨0, 5, 0, n⟩) wS && ready (.icinv h0 ⟨0, 5, 5, n⟩) (sup 0)) = true := by
  decide +kernel

/-- R340, R346, R349 where they trap: a privileged register and a privileged instruction of a compute core. -/
theorem test_privilege :
    ready (.eret h0 ⟨0, 0, 0, 0⟩) wS = false ∧ (getCore (result (exec (.eret h0 ⟨0, 0, 0, 0⟩) wS)) check).frozen = true ∧
    bits (getCore (result (exec (.mtsr h0 ⟨0, 5, 0, 2⟩) wS)) check).fsyn.toNat 47 32 = FCode.priv.num := by decide +kernel

/-! ### Witnesses: macros -/

/-- A task with an endpoint of the control store's image in s31 (LS, b1) and a request word in s30, bound to request 0. -/
def wY : State :=
  { on check { memTask with s := (30, 0) :: (31, 1 * 2 ^ 59) :: [(34, 64)] } with
    mem := cellsWrite [] (reqAdr 0 0) (leBytes 8 (2 ^ 63 + 3 * 2 ^ 50)), binds := [⟨0, 0, 5⟩] }

theorem witness_ControlStoreAndMacroIssue :
    ready (.csld h0 ⟨6, 31, 0, 0⟩) wY = true ∧ endPending wY (1 * 2 ^ 59) = false ∧ endPoison wY (1 * 2 ^ 59) 11 = none ∧
    endOk (curTask wY) (1 * 2 ^ 59) = true ∧ rangeHeld wY (lsFlat 0 32 0) 16384 = false ∧
    firstLost wY (lsFlat 0 32 0) 16384 = none ∧ (checkRange wY 11 .load 16384 64 (1 * 2 ^ 59)).isOk = true ∧ (curTask wY).macros = [] ∧
    spireHeld wY (lsFlat 0 32 0) = false ∧ badRange wY (lsFlat 0 32 0) 16384 = false ∧
    ready (.mmt h0 ⟨6, 34, 0, 0x7FF⟩) wY = true ∧ ready (.matt h0 ⟨6, 34, 30, 0x700⟩) wY = true ∧ reqOpen wY 0 0 = true ∧
    reqCtx wY 0 0 = 3 ∧ scalarIn (curTask wY) 30 = 0 ∧ (imageWord (mapGet 0 (curBank (getCore wY check)) 0xFF).toNat 0).testBit 40 = false ∧
    (⟨0, 0, 5⟩ : Binding) ∈ wY.binds := by decide +kernel

/-! ### Witnesses: macros that begin, the order of the checks -/

/-- A record of an MMT: ob8 by bk5, X −3, NB and G zero; and of an MATT: bk4 by bk4, NB 1, G 3. -/
def recMmt : BitVec 512 := BitVec.ofNat 512 (2 ^ 56 + 12 * 2 ^ 52 + 13 * 2 ^ 45 + 3 * 2 ^ 42 + 0xFFFD * 2 ^ 16)
def recMatt : BitVec 512 :=
  BitVec.ofNat 512 (2 * 2 ^ 56 + 13 * 2 ^ 52 + 2 * 2 ^ 49 + 13 * 2 ^ 45 + 2 * 2 ^ 42 + (2 ^ 24 + 3 * 2 ^ 16) * 2 ^ 64)

/-- A macro of core 32 with its block at scratchpad offset 64. -/
def aMacro (kind : MacroKind) (rec0 : BitVec 512) (z : Nat) : Macro :=
  { kind := kind, gen := 0, record := rec0, z := z, block := word (lsFlat 0 32 64), request := 0, status := 6, bundle := 0x1000, id := 9, born := 0, fail := none, flags := 0,
    begun := false, step := 0, beat := 0, st := [] }

/-- Its task, with the macros in its queue and this block. -/
def wMacro (l : List Macro) (block : List Nat) : State :=
  { on check { task with macros := l } with mem := cellsWrite [] (lsFlat 0 32 64) (block.flatMap (leBytes 8)) }

/-- A block of 16 beats; one with none; one of an MATT of two rows and 32 rows of keys. -/
def blkMmt : List Nat := [16 * 2 ^ 48, 0, 0, 0, 0, 0, 0, 0]
def blkMatt : List Nat := [0, 2 ^ 54, 32 * 2 ^ 32, 32 * 2 ^ 32, 0, 0, 0, 0]

theorem witness_MacroBegin :
    [(aMacro .mmt recMmt 7, wMacro [aMacro .mmt recMmt 7] blkMmt), (aMacro .matt recMatt 3, wMacro [aMacro .matt recMatt 3] blkMatt),
      (aMacro .mmt recMmt 7, wMacro [aMacro .mmt recMmt 7, aMacro .matt recMatt 3] [])].all (fun (x : Macro × State) =>
        !macroHeld x.2 x.1 (lsFlat 0 32 64) 64 && !badRange x.2 (lsFlat 0 32 64) 64 && (getCore x.2 check).live) = true ∧
    (mmtBad (wMacro [aMacro .mmt recMmt 7] blkMmt) (aMacro .mmt recMmt 7)).all (fun x => !x.1) = true ∧ Memory.wf (wMacro [aMacro .mmt recMmt 7] blkMmt).mem = true ∧
    (curTask (wMacro [aMacro .mmt recMmt 7] blkMmt)).arr.blk = none ∧ badRange (wMacro [aMacro .mmt recMmt 7] blkMmt) (lsFlat 0 32 64) 64 = false ∧
    (mattBad (wMacro [aMacro .matt recMatt 3] blkMatt) (aMacro .matt recMatt 3)).all (fun x => !x.1) = true ∧
    tileValid (curTask (wMacro [aMacro .matt recMatt 3] blkMatt)).arr 3 = true ∧
    tilePoison (curTask (wMacro [aMacro .matt recMatt 3] blkMatt)) 3 = none ∧ Memory.wf (wMacro [aMacro .matt recMatt 3] blkMatt).mem = true ∧
    (mmtBad (wMacro [aMacro .mmt recMmt 7, aMacro .matt recMatt 3] []) (aMacro .mmt recMmt 7)).find? (fun x => x.1) = some (true, 3, 0) ∧
    (curTask (wMacro [aMacro .mmt recMmt 7, aMacro .matt recMatt 3] [])).arr.valid.length = 8 := by decide +kernel

/-- Macros that fail: an MATT of a tile that is not valid; an ill-formed one with another behind it, whose record is free, and one whose
record a store of the same core holds. -/
theorem witness_macro_fails :
    let m := aMacro .matt recMatt 3
    let n := aMacro .matt recMmt 3
    let e : MacroEnd := ⟨0, 3, 0, 0, 0⟩
    let s := modArr (wMacro [m] blkMatt) (fun a => { a with valid := [true, true, true, false, true, true, true, true] })
    let u := wMacro [n, aMacro .mmt recMmt 2] blkMatt
    let x : Access := { mkAccess u 3 7 0 (.store 0) [⟨0, (errorArea check (curTask u)), 8⟩] with id := 3 }
    tileValid (curTask s).arr 3 = false ∧ (mattBad s m).all (fun x => !x.1) = true ∧
    ((mattBad u n).find? (fun x => x.1)).isSome = true ∧ u.nextId = 0 ∧ m.z < 8 ∧ (curTask u).arr.valid.length = 8 ∧
    recordHeld u n e = false ∧ recordHeld { u with acc := [x] } n { e with id := 9 } = true ∧
    macroHeld { u with acc := [x] } n (lsFlat 0 32 64) 64 = false := by decide +kernel

/-- One row of an access, of 8 bytes with this record at this offset. -/
def ask1 (r : Rec) (w : Option Nat) (off : Int) : Ask := ⟨r, ⟨0, 0⟩, w, .load, 8, 0, off, [(0, off, 8)], false⟩

/-- A call of each check: it and all later ones fail, those before it do not. -/
theorem witness_AccessCheckOrder :
    [ask1 ⟨0, false, false⟩ (some 1) 3, ask1 ⟨0, true, true⟩ (some 1) 3, ask1 ⟨0, true, false⟩ (some 1) 3, ask1 ⟨0, true, false⟩ (some 0) 3,
      ask1 (recOf 0 0 0) none 3, ask1 (recOf 0 8 0) none 8, ask1 (recOf 0xF_FFFC 8 0) (some 0) 0, ask1 (recOf 0xF_FFFC 8 1) (some 1) 0,
      ask1 (recOf 0 8 0) (some 0) 0].map (fun q =>
        match checkAsk wA check 7 q with
        | .ok l => (0, l.length)
        | .error e => (e.detail.toNat, e.code.num)) =
      [(1, FCode.rights.num), (1, FCode.rights.num), (2, FCode.rights.num), (3, FCode.rights.num), (4, FCode.misaligned.num),
        (5, FCode.bounds.num), (5, FCode.bounds.num), (8, FCode.bounds.num), (0, 1)] := by decide +kernel

/-! ### Witnesses: versions, watches, timetable -/

/-- The buffer of chapter 5: two slots of four granules from granule 32, CONSUME 1, context 5. -/
def vName : Word := 0x0808_0000
def vDesc (consume : Nat) : Word := BitVec.ofNat 64 (0x9380_0005_0000_0000 + consume * 2 ^ 46)

/-- It on check core 32 of tower 0, with a task of its context that names it and a version. -/
def wBuf (consume : Nat) (slots : List VSlot) (newest : BitVec 32) (count : Nat) (x : Word) : State :=
  let k := { task with ctx := 5, s := [(1, vName), (2, x)] }
  { on check k with
    cores := [(coreKey check,
      { CoreSt.reset 32 with live := true, task := k, vbd := setAt (List.replicate 8 VBuf.off) 0 ⟨vDesc consume, slots, newest, count, []⟩ })] }

def slotIs (st : SlotState) (v : BitVec 32) (hold rel : BitVec 4) : VSlot := ⟨st, v, hold, rel⟩

/-- What the clauses ask: the buffer is found, its home and its way there are free, it has its slots, and the task waits for nothing. -/
def vMay (s : State) : Bool :=
  findVb s (scalarIn (curTask s) 1) == some (0, 32, 0) && decide (vbCtx (getVb s check 0) = 5) && !vbMigrating s 0 32 0 &&
    !laneHeld s s.cur (scalarIn (curTask s) 1).toNat && (curTask s).verWait.isNone && decide ((getVb s check 0).slots.length = vbSlots (getVb s check 0))

theorem witness_VersionResults :
    let free := slotIs .free 0 0 0
    let s0 := wBuf 1 [free, free] 0xFFFF_FFFF 0 0
    let s1 := wBuf 0 [slotIs .closed 3 0 0, slotIs .closed 2 0 1] 3 3 0
    let s2 := wBuf 1 [slotIs .opened 4 0 0, slotIs .closed 3 1 14] 3 3 3
    (vMay s0 && !ownSeal s0 check 0 && ready (.vopen h0 ⟨6, 1, 0, 0⟩) s0 && (vbOpen (getVb s0 check 0)).isNone && vbCandidate (getVb s0 check 0) == some 0) = true ∧
    (vMay s1 && !ownSeal s1 check 0 && ready (.vopen h0 ⟨6, 1, 0, 0⟩) s1 && (vbOpen (getVb s1 check 0)).isNone && vbCandidate (getVb s1 check 0) == some 1) = true ∧
    (ready (.vhold h0 ⟨6, 1, 2, 0⟩) s1 && !versionLost (getVb s1 check 0) 3 &&
      findSlot (getVb s1 check 0) (fun y => decide (y.st = .closed) && decide (y.version = 3) && decide (y.hold ≠ 15)) == some 0) = true ∧
    (vMay s2 && ready (.vseal h0 ⟨0, 1, 0, 0⟩) s2 && (vbOpen (getVb s2 check 0)).isSome) = true ∧
    (ready (.vrel h0 ⟨0, 1, 2, 0⟩) s2 && !ownSeal s2 check 0 && !versionLost (getVb s2 check 0) 3 &&
      heldSlot (getVb s2 check 0) 3 (ownRels s2 check 0 3) == some 1) = true ∧
    let s3 := result (exec (.vseal h0 ⟨0, 1, 0, 0⟩) s2)
    (vMay s3 && ready (.vrel h0 ⟨0, 1, 2, 0⟩) s3 && ownSeal s3 check 0 && !versionLost (getVb s3 check 0) 3 &&
      heldSlot (getVb s3 check 0) 3 (ownRels s3 check 0 3) == some 1) = true ∧
    (let s4 := result (exec (.vrel h0 ⟨0, 1, 2, 0⟩) s3)
     (s3.seals.flatMap (relsBehind s4)).map Pending.rel = [some 3] ∧ s3.seals.all (fun p => decide (p.rel = none) && sealFree s4 p) = true) ∧
    s3.seals.length = 1 ∧ s3.seals.all (fun p => sealFree s3 p && vbOpen (getVb s3 p.core p.buf) == some 0) = true ∧
    coreLayer 32 = 1 ∧ (getCore s2 check).vbd.length = 8 ∧ (vDesc 1).getLsbD 63 = true ∧ vbOn (getVb s2 check 1) = false ∧
    vbRejected s2 check 1 ⟨0x9340_4005_0000_0000, [], 0, 0, []⟩ = false ∧ (getVb s2 check 0).waits = [] ∧
    (List.range 16).all (fun g => !allocHeld s2 (vbSlotAdr 0 32 ⟨0x9340_4005_0000_0000, [], 0, 0, []⟩ g) 0x4000 5) = true ∧ vbRejected s2 check 1 ⟨vDesc 1, [], 0, 0, []⟩ = true := by decide +kernel

/-- An image of a watch on GS address 0x800_0000 of 128 bytes: BYTES, FIRES 1, in b1 at offset 0; an entry of another and of the task's
own context; timetable entry 2, of the task's context and not pending. -/
def wWatch (w0 w1 w2 : Nat) : State :=
  { on check { memTask with s := [(1, 1 * 2 ^ 59), (2, 2 * 2 ^ 59 + 0x1000), (3, 1), (4, 0), (5, 2), (6, 3 * 2 ^ 32 + 9)] } with
    mem := cellsWrite (cellsWrite (cellsWrite [] (lsFlat 0 32 0) (leBytes 8 w0 ++ leBytes 8 w1 ++ leBytes 8 w2)) (watchAdr 0 1)
      (leBytes 8 (2 ^ 63 + 3 * 2 ^ 44))) (ttAdr 0 2 + 24) (leBytes 8 (3 * 2 ^ 48)) }

theorem witness_WatchResults :
    let s := wWatch (2 ^ 16) 0x800_0000 128
    let bad := wWatch 0 0x800_0000 128
    let sb := { on boss { memTask with s := [(7, 2 * 2 ^ 59 + 0x2000)] } with
      mem := cellsWrite [] 0x2000 (leBytes 8 (2 ^ 16) ++ leBytes 8 0x800_0000 ++ leBytes 8 128) }
    ready (.watch h0 ⟨20, 0, 7, 1⟩) sb = true ∧ imageWords sb 0x2000 = [2 ^ 16, 0x800_0000, 128, 0, 0, 0, 0, 0] ∧
    (checkBlock sb 11 .load 64 1 false false (2 * 2 ^ 59 + 0x2000)).isOk = true ∧ ready (.watch h0 ⟨20, 2, 1, 0⟩) s = true ∧ endPending s (1 * 2 ^ 59) = false ∧
    endPoison s (1 * 2 ^ 59) 11 = none ∧ (checkBlock s 11 .load 64 1 false false (1 * 2 ^ 59)).isOk = true ∧
    (watchStatus s 0 [2 ^ 16, 0x800_0000, 128, 0]) = .ok ∧ watchStatus bad 0 [0, 0x800_0000, 128, 0] = .badfield ∧
    imageWords s (lsFlat 0 32 0) = [2 ^ 16, 0x800_0000, 128, 0, 0, 0, 0, 0] ∧
    endOk (curTask s) (2 * 2 ^ 59 + 0x1000) = true ∧ (checkEnd s 11 .store 1 (2 * 2 ^ 59 + 0x1000) [(0x1000, 128)]).isOk = true ∧
    firstLost sb 0x2000 64 = none ∧ firstLost s (lsFlat 0 32 0) 64 = none ∧
    ready (.unwatch h0 ⟨20, 3, 0, 0⟩) s = true ∧ watchGet s 0 1 0 55 44 = 3 ∧ watchGet s 0 1 0 63 63 = 1 ∧
    ready (.unwatch h0 ⟨20, 4, 0, 0⟩) s = true ∧ watchGet s 0 0 0 55 44 = 0 ∧
    ready (.ttrel h0 ⟨20, 5, 6, 0⟩) s = true ∧ ttGet s 0 2 24 59 48 = 3 ∧ ttGet s 0 2 24 35 20 = 0 ∧ ttGet s 0 0 24 59 48 = 0 ∧
    ready (.ttrel h0 ⟨20, 4, 6, 0⟩) s = true ∧ Memory.wf s.mem = true := by decide +kernel

/-! ### Witnesses: exceptions -/

/-- An entry of the event queue: a trap. -/
def anEntry : EvEntry := ⟨fsynOf false 5 0x20 0, 1, 2, 3⟩

theorem witness_ExceptionEntry :
    (bundleFault wA .illegalOperand 3).tile = none ∧
    (let s := { on boss task with towers := [(0, { TowerSt.reset with evq := [anEntry], heldTraps := [anEntry], sup := { TowerSt.reset.sup with sstat := 1, inReset := false } })] }
     (getTower s 0).evq = [anEntry] ∧ mayTrap s 0 = true ∧ (getTower s 0).sup.sstat.getLsbD 0 = true ∧ trapCount (getTower s 0).evq < 4) ∧
    (getTower (on boss task) 0).sup.sstat.getLsbD 0 = false ∧
    (let x := getCore (on check { task with trapDue := 1 }) check
     x.live = true ∧ x.frozen = false ∧ x.task.group = 0 ∧ x.task.trapDue ≠ 0 ∧ x.task.drainTo = none) ∧
    (getTower (on check task) 0).inReset = false := by decide +kernel

/-! ### Witnesses: the scheduler -/

/-- Memory with these words of eight bytes. -/
def memAt (l : List (Nat × Nat)) : List Host.Cell := l.foldl (fun m x => cellsWrite m x.1 (leBytes 8 x.2)) []

/-- Page tables in TM of tower 0 whose addresses 0 and 0xFFF8_0000_0000_0000 lie in one page of 2 MiB at TM 0x2_0000_0000. -/
def pages : List (Nat × Nat) :=
  [(tmFlat 0 0x1_0000_0000, 2 ^ 62 + 0x1_0001_0000), (tmFlat 0 0x1_0000_2000, 2 ^ 62 + 0x1_0001_0000), (tmFlat 0 0x1_0001_0000, 2 ^ 62 + 0x1_0002_0000),
    (tmFlat 0 0x1_0002_0000, 2 ^ 63 + 0x2_0000_0000 + 0xC000)]

/-- A launch of task 0 of context 3 by SPAWN; an entry of the queues for task 9. -/
def aLaunch (path : Path) : Launch := ⟨4, 3, 0, 0x0001_0002_0003, 7, path, .plain, 0, none, []⟩
def anREntry (backoff : Option Word) : REntry := ⟨9, 2, 0, 0, 0, backoff, false⟩

/-- Task 9 of context 3, ready, with its entry; the context has its tables and a budget. -/
def wE (l : List REntry) (claims : List Claim) : State :=
  { State.reset with
    pkg := { PkgSt.reset with cyc := 5 }
    towers := [(0, { TowerSt.reset with
      ready := l, claims := claims, launches := [aLaunch .spawn], bud := [(3, 100)], vroot := [(3, 2 ^ 63 + 0x1_0000_0000)],
      tkroot := [(3, 2 ^ 63 + 0x3_0000_0000)] })]
    tasks := [(9, { task with num := 9, status := .ready, desc := 0 })]
    mem := memAt (pages ++ [(tmFlat 0 0x3_0000_0010, 5), (tmFlat 0 0x3_0000_0018, 0x1000)]) }

/-- The descriptors that a launch read, or the reason of its refusal. -/
def descsOf (e : Except Nat (List Nat)) : Sum (List Nat) Nat :=
  match e with
  | .ok l => .inl l
  | .error r => .inr r

theorem witness_SchedulerEvents :
    descsOf (readDescs (wE [] []) 0 3 0) = .inl [0x1000 * 2 ^ 192 + 5 * 2 ^ 128] ∧ descSolo (0x1000 * 2 ^ 192 + 5 * 2 ^ 128) = true ∧
    ((getTower (wE [] []) 0).launches.find? (fun x => x.id = 4)) = some (aLaunch .spawn) ∧
    launchBehind (aLaunch .spawn) (getTower (wE [] []) 0) = false ∧ descsOf (readDescs State.reset 0 3 0) = .inr 1 ∧
    (getCore (wE [] []) check).live = false ∧ (getCore (wE [] []) check).asked = false ∧ (getCore (wE [] []) check).reserved = none ∧
    popChoice (wE [] []) 0 32 0 2 = none ∧ popChoice (wE [anREntry none] []) 0 32 0 2 = some (anREntry none) ∧
    (anREntry none).entry ≠ (wE [] []).pkg.cyc ∧ slotsOpen (wE [anREntry none] []) 0 9 = true ∧
    (entryTasks (wE [anREntry none] []) 9).any (slotLost (wE [anREntry none] []) 0) = false ∧
    entryGang (wE [anREntry none] []) 9 = false ∧ (mapGet? (wE [anREntry none] []).tasks 9).isSome = true ∧
    (anREntry (some 0)) ∈ (getTower (wE [anREntry (some 0)] []) 0).ready ∧
    (let s := setCore (wE [anREntry none] [⟨9, 1, 2⟩]) (.core 0 (coreCode 0 1 2))
        { getCore (wE [] []) (.core 0 (coreCode 0 1 2)) with reserved := some 9 }
     (getTower s 0).claims.find? (fun y => y.cluster = 1) = some ⟨9, 1, 2⟩ ∧
     claimCodes s (getTower s 0) 9 = [(9, coreCode 0 1 2)] ∧ budOpen s 0 (((entryTasks s 9).map (fun k => k.ctx)).headD 0) = true ∧
     (getCore s (.core 0 (coreCode 0 1 2))).reserved = some 9 ∧ slotsOpen s 0 9 = true ∧ (entryTasks s 9).any (slotLost s 0) = false) ∧
    (let s := setCore (wE [] []) check { CoreSt.reset 32 with live := true, preempt := true, task := task }
     saveReady s check = true ∧ firstGap 0 (slotsHeld s 0 3) = 0 ∧ (slotPieces s 0 3 0).map (fun l => (l.length, l.headD 0)) =
       some (32, tmFlat 0 0x2_0000_0000) ∧ task.group = 0 ∧ task.trapDue = 0) := by decide +kernel

/-! ### Witnesses: the clock, streams -/

/-- Timetable entry 2 of tower 0 armed for tick 0 of frame 0, with period `p`; a trigger of watch entry 1, which may fire `n` times in
`mode`, has fired `fired` times and is in state `st` (4 with MUTED). -/
def wF (p n mode st fired : Nat) : State :=
  { State.reset with
    towers := [(0, { TowerSt.reset with trigs := [⟨1, 64, 64⟩] })]
    mem := memAt [(ttAdr 0 2, 7), (ttAdr 0 2 + 8, 1 * 2 ^ 48), (ttAdr 0 2 + 16, 0x0002_0003),
      (ttAdr 0 2 + 24, 2 ^ 63 + 3 * 2 ^ 48 + 6 * 2 ^ 36 + p * 2 ^ 20), (watchAdr 0 1, 2 ^ 63 + mode * 2 ^ 61 + 3 * 2 ^ 44 + 6 * 2 ^ 32 + n * 2 ^ 16),
      (watchAdr 0 1 + 0x28, st * 2 ^ 60 + fired * 2 ^ 32)] }

/-- Two cores of column 1 of cluster 2 of tower 0 with tasks of a bus group that ask for the window. -/
def wL2 (lostD lostC : Bool) : State :=
  let core := fun (num : BitVec 32) (lost : Bool) (r : Word) =>
    { CoreSt.reset 0 with live := true, macced := true, lost := lost, task := { task with num := num, release := r } }
  let mem := fun (num : BitVec 32) => ({ num := num, cfg := none, next := none, taken := 0, waits := false, bad := false } : BusMember)
  { State.reset with
    cores := [(coreKey (.core 0 (coreCode 0 2 1)), core 5 lostD 7), (coreKey (.core 0 (coreCode 1 2 1)), core 6 lostC 7)]
    buses := [{ tower := 0, layer := 0, cluster := 2, gang := 5, members := [mem 5, mem 6], slice := none, ahead := [] }] }

theorem witness_ClockEvents :
    fper State.reset = 1600000 ∧ State.reset.pkg.cyc.toNat < State.reset.pkg.fstart.toNat + fper State.reset ∧
    [0, 1].all (fun p =>
      let s := wF p 3 0 0 0
      let w := getTower s 0
      w.scanned.isNone && w.stall.isNone && !ttHolds w && ttArmed s 0 == [2] && !ttReserved s 0 2 && decide (ttGet s 0 2 24 19 8 < tpf s) &&
        ttDue s 0 (curTick s) 2 && decide (Memory.wf s.mem = true)) = true ∧
    [(0, 0, 0, 0), (1, 1, 0, 0), (1, 2, 4, 0), (1, 0, 8, 0), (1, 0, 4, 3), (1, 0, 1, 0)].all (fun (x : Nat × Nat × Nat × Nat) =>
      (getTower (wF 1 3 x.2.1 x.2.2.1 x.2.2.2) 0).trigs == [⟨1, 64, 64⟩]) = true ∧
    (watchSt (wF 1 3 0 8 0) 0 1, watchSt (wF 1 3 1 4 0) 0 1, watchMode (wF 1 3 2 4 0) 0 1, watchGet (wF 1 3 0 1 0) 0 1 0x28 60 60,
      watchGet (wF 1 3 0 0 3) 0 1 0x28 47 32 + 1) = (2, 1, 2, 1, 4) ∧
    [true, false].all (fun d => [true, false].all (fun c =>
      asksWindow (wL2 d c) (.core 0 (coreCode 0 2 1)) && asksWindow (wL2 d c) (.core 0 (coreCode 1 2 1)))) = true ∧
    asksWindow (wF 0 0 0 0 0) (.core 0 0) = false := by decide +kernel

/-- Stream 7 in slot 3 of tower 0: policy `pol` (bit 20 and the limit of its shifts), state `st`, tick 5,000 ns with 5 us guard and
20 us period, save area at VA 0; the device time; the notes of the unit; the first chunk's mark. -/
def wZ (pol st time : Nat) (checked silent : List Nat) (mark : Nat) : State :=
  { State.reset with
    pkg := { PkgSt.reset with tofs := word time }
    towers := [(0, { TowerSt.reset with
      vroot := [(3, 2 ^ 63 + 0x1_0000_0000)], checked := checked, silent := silent, restores := [3], fires := checked.map (fun n => ⟨n, true, 7⟩) })]
    mem := memAt (pages ++ [(streamAdr 0 3, 2 ^ 63 + st * 2 ^ 60 + 3 * 2 ^ 48 + 7 * 2 ^ 32 + pol * 2 ^ 16), (streamAdr 0 3 + 8, 5),
      (streamAdr 0 3 + 0x38, 20 * 2 ^ 32 + 6), (streamAdr 0 3 + 0x40, 5000), (slotAdr 0 3 + 0x200, mark)]) }

/-- A frame of stream 7: two bytes of chunk 0. -/
def aFrame : List Byte :=
  List.replicate 12 0 ++ [0x88, 0xB5, 0x10, 0, 0, 7, 0, 0, 0, 0, 0, 0, 0, 0, 0, 0, 0, 9, 0, 2, 0, 0, 0xAB, 0xCD]

theorem witness_StreamEvents :
    (let s := wZ 0x12 0 0 [] [] 0
     stActive s 0 3 = true ∧ stNext s 0 3 ≤ ptpt s + stGuard s 0 3 ∧ chunkPresent s 0 3 0 = false ∧ stGet s 0 3 0 20 20 = 1 ∧
     stGet s 0 3 0x48 31 28 < stGet s 0 3 0 19 16 ∧ Memory.wf s.mem = true ∧ 3 < 768 ∧ (getTower s 0).fmr.getLsbD 3 = false) ∧
    chunkPresent (wZ 2 0 0 [] [] (2 ^ 30 + 2)) 0 3 0 = true ∧ stGet (wZ 2 0 0 [] [] 0) 0 3 0 20 20 = 0 ∧
    (let s := wZ 2 0 5000 [3] [3] 0
     stNext s 0 3 ≤ ptpt s ∧ (getTower s 0).fires.find? (fun f => f.slot = 3) = some ⟨3, true, 7⟩ ∧
     reqOpen s 0 (stReq s 0 3) = false ∧ ptpt s + stGuard s 0 3 ≤ stNext s 0 3 + stPeriod s 0 3 ∧ slotBusy s 0 3 = false ∧ saveHeld s 0 3 = false ∧
     saveAreaOf s 0 3 14 = some (tmFlat 0 0x2_0000_0000) ∧ isTm (tmFlat 0 0x2_0000_0000) = true ∧ isTm (tmFlat 0 0x2_0000_7FFF) = true) ∧
    (let s := wZ 2 3 0 [] [] 0
     stOn s 0 3 = true ∧ streamState s 0 3 = 3 ∧ lowestSlot s 0 = some 0 ∧ saveAreaOf s 0 3 15 = some (tmFlat 0 0x2_0000_0000) ∧
     allocHeld s (slotAdr 0 0) 0x8000 3 = false ∧ rangeHeld s (tmFlat 0 0x2_0000_0000) 0x8000 = false ∧ 3 ∈ (getTower s 0).restores) ∧
    (let s := wZ 2 0 0 [] [] 0
     isPtp aFrame 12 = false ∧ aFrame.length + 4 ≤ 9216 ∧ beNat (slice aFrame 12 2) = 0x88B5 ∧ streamHeaderOk aFrame 14 = true ∧
     (streamsOn s 0).find? (fun n => stGet s 0 n 0 47 32 = 7) = some 3 ∧ streamState s 0 3 = 0 ∧ stExp s 0 3 = 0 ∧ (getTower s 0).inReset = false ∧
     bits (readNat s (slotAdr 0 3 + 0x200) 8) 31 30 = 0) ∧
    isPtp (List.replicate 12 0 ++ [0x88, 0xF7]) 12 = true ∧ streamHeaderOk (aFrame ++ [0]) 14 = false := by decide +kernel

/-- The frame is under way. -/
theorem witness_frame_lands :
    (getTower (result (exec (.ethFrameReceive 0 true aFrame) (wZ 2 0 0 [] [] 0))) 0).landing.map
      (fun x => (x.id, x.frame.slot, x.frame.bytes, x.put)) = [(0, 3, [0xAB, 0xCD], [])] := by decide +kernel

/-- Whether a port is disabled is the package's own (log 118): each clause of the statement holds of one of its two values. -/
theorem witness_TimeEvents :
    let x := fun (t2 : Word) => ((t2 - 0).toInt - (0 - (0 : Word)).toInt) / 2
    (x 2000).natAbs ≤ 1000 ∧ 1000000 < (x 3000000).natAbs ∧ (getTower State.reset 0).fmr.getLsbD 6 = false := by decide +kernel

/-! ### Witnesses: memory, invalidation, spires, heat -/

/-- The accesses that a bundle left, each with its first event still to come. -/
def lastEvent (s : State) : State := { s with acc := s.acc.map (fun x => { x with grans := x.grans.take 1 }) }
def wLd : State := lastEvent (result (exec (.gvld h0 (vf 2 0 0)) wA))
def wSt : State := lastEvent (result (exec (.gvst h0 (vf 2 0 0)) wA))

def isLoadV (x : Access) : Bool :=
  match x.op with
  | .loadV _ => x.bad.isNone
  | _ => false
def isStore (x : Access) : Bool :=
  match x.op with
  | .store _ => true
  | _ => false

/-- Is an access at its last event, which may be performed? -/
def atLast (s : State) (x : Access) : Bool :=
  (s.acc.find? (fun y => y.id = x.id && isAccess y) == some x) &&
    (match x.grans with
     | [g] => decide (x.slot ≠ 7) && x.hits.isEmpty && (mates s x).isEmpty && granFree s x g && !badRange s g.adr g.len && !lostAt s g.adr && decide (8 * (g.off + g.len) ≤ 16384) && writable g.adr &&
        stillThere s x.who x.num
     | _ => false)

/-- The page-in, or the eviction, of index entry 5 of pool 2. -/
def aPaging (new : Option Nat) : Paging := ⟨8, 0, 2, .index 5, 0x100, new, [], true, false, []⟩

/-- Pool 2 of tower 0 with four pages of 4 KiB, and a page-in that has no page yet. -/
def wPaging (new : Option Nat) : State :=
  { State.reset with
    pageIns := [aPaging new], evicts := [aPaging new], zero := [⟨0x1000, 4096, true⟩, ⟨0x8000, 64, false⟩]
    mem := memAt [(poolAdr 0 2, 2 ^ 63 + 3 * 2 ^ 44), (poolAdr 0 2 + 0x10, 0x10_0000), (poolAdr 0 2 + 0x18, 4 * 2 ^ 32)] }

theorem witness_MemoryEvents :
    (wLd.acc.length = 1 ∧ wLd.acc.all (fun x => isLoadV x && atLast wLd x) = true ∧ Memory.wf wLd.mem = true ∧ wLd.freeing = []) ∧
    (wSt.acc.length = 1 ∧ wSt.acc.all (fun x => isStore x && atLast wSt x) = true ∧ Memory.wf wSt.mem = true ∧ wSt.freeing = []) ∧
    [0x1FFF, 0x803F].all (fun (a : Nat) => ((wPaging none).zero.find? (fun z => decide (z.base ≤ a) && decide (a < z.base + z.len))).isSome) = true ∧
    (wPaging (some 3)).pageIns.find? (fun h => h.id = 8) = some (aPaging (some 3)) ∧
    (wPaging (some 3)).evicts.find? (fun h => h.id = 8) = some (aPaging (some 3)) ∧
    (wPaging none).pageIns.filter (fun g => decide (g.tower = 0) && g.live) = [aPaging none] ∧ (allocPage (wPaging none) 0 2 0).isSome = true ∧
    [true, false].all (fun out => !rangeHeld (wPaging (some 3)) (pagingEnds (wPaging (some 3)) (aPaging (some 3)) out 3).1 4096 &&
      !rangeHeld (wPaging (some 3)) (pagingEnds (wPaging (some 3)) (aPaging (some 3)) out 3).2 4096) = true ∧
    poolPage (wPaging (some 3)) 0 2 = 4096 ∧ evictStays (wPaging (some 3)) (aPaging (some 3)) = false ∧
    Memory.wf (wPaging none).mem = true ∧ (getCore wA check).live = true := by decide +kernel

/-- A core with a result in its buffer, at a group boundary; and one with none. -/
theorem witness_snapshot :
    let s := on check { task with snap := 1, issued := 1, due := [{ due := 6, born := 0, slot := 4, dst := .vector none 0, ring := none, flags := 0, poisoned := none }] }
    bufferFull (getCore s check) = true ∧ findPlaced s 5 = some check ∧ (getCore s check).task.group = 0 ∧ bufferFull (getCore wA check) = false := by
  decide +kernel

/-- The object table of context 3 at TM 0 of tower 0, a staged entry, and a record of it in b1 and a handle in h4 on check core 32. -/
def wU (staged : List Word) : State :=
  { wA with towers := [(0, { TowerSt.reset with otroot := [(3, 2 ^ 63)], otd := staged, otPend := some ⟨3, 7, 0⟩ })] }

theorem witness_InvalidationEvents :
    (let s := { wU [0, 0, 0, 0] with towers := [(0, { TowerSt.reset with otroot := [(3, 2 ^ 63)] })] }
     (getTower s 0).otPend = none ∧ (entryFlat s 0 3 7).isSome = true ∧ entryFlat s 0 4 7 = none ∧ otwStatus 3 (2 ^ 20 + 5) 0 ≠ 0 ∧
     otwStatus 3 0 0 = 0 ∧ Memory.wf s.mem = true) ∧
    (getTower (wU [0, 0, 0, 0]) 0).otPend = some ⟨3, 7, 0⟩ ∧ State.reset.pkg.xinv = none ∧
    [0, 2 ^ 61 + 3, 2 ^ 62].all (fun (x : Nat) => bits (2 ^ 63 + x) 58 52 == 0 && bits (2 ^ 63 + x) 15 12 == 0 && bits (2 ^ 63 + x) 60 59 != 3) = true :=
  by decide +kernel

/-- A tower whose spire thresholds are 4, with its automatic retirement on or off, and the retirements under way. -/
def wTower (fmr : Word) (spFree : BitVec 4) (retires : List Retire) : State :=
  { State.reset with towers := [(0, { TowerSt.reset with spThr := 4, fmr := fmr, spFree := spFree, retires := retires })] }

/-- A retirement that is to be decided, and one whose carrier has taken over with buffer 0 to migrate. -/
def aRetire (moved : Bool) (todo : List Nat) : Retire := { spire := 3, action := .decide, moved := moved, carrier := 7, report := [], todo := todo, stamp := some 0 }

theorem witness_SpireAndThermalEvents :
    (let w := getTower (wTower 0 0xF []) 0
     bits w.spThr.toNat 15 0 = 4 ∧ w.rerouted.getLsbD 3 = false ∧ w.retires = [] ∧ w.fmr.getLsbD 7 = false ∧ spireRetired w 3 = false ∧
     w.spFree.getLsbD 2 = true ∧ (carriersOf w 3).isEmpty = false ∧ spareFor w .decide = some 0) ∧
    (getTower (wTower 0x80 0xF []) 0).fmr.getLsbD 7 = true ∧
    (let w := getTower (wTower 0 0 [aRetire false []]) 0
     w.retires.find? (fun x => x.spire = 3 && !x.moved) = some (aRetire false []) ∧ spareFor w .decide = none ∧
     (carrierFor { w with rerouted := w.rerouted ||| (1#32 <<< 3) } 3 .decide).isSome = true) ∧
    [[], [0]].all (fun l => (getTower (wTower 0 0 [aRetire true l]) 0).retires.find? (fun x => x.spire = 3 && x.moved) == some (aRetire true l)) = true ∧
    (let s := setCore (wTower 0 0 [aRetire true [0]]) (.core 0 (columnCore 3 1))
        { CoreSt.reset 32 with vbd := setAt (List.replicate 8 VBuf.off) 0 ⟨vDesc 1, [], 0, 0, []⟩ }
     vbOn (getVb s (.core 0 (columnCore 3 1)) 0) = true ∧
     rangeBusy s 0 (vbSlotAdr 0 (columnCore 3 1) (getVb s (.core 0 (columnCore 3 1)) 0) 0) 0x20000 = false ∧
     rangeBusy { s with acc := wSt.acc.map (fun x => { x with all := [(vbSlotAdr 0 (columnCore 3 1) ⟨vDesc 1, [], 0, 0, []⟩ 0, 8)] }) } 100
       (vbSlotAdr 0 (columnCore 3 1) ⟨vDesc 1, [], 0, 0, []⟩ 0) 0x20000 = true) ∧
    (let h := (getTower State.reset 0).thermal
     isCritical h = false ∧ isHot h = false ∧ isHot { h with reading := h.reading.set 2 0x0550 } = true ∧
     isCritical { h with reading := h.reading.set 2 0x0550 } = false ∧ isCritical { h with reading := h.reading.set 2 0x0FFF } = true ∧
     h.warnAt = none ∧ h.step.toNat < 4 ∧ reading h 2 < warnLimit 2 ∧ warnLimit 2 ≤ 0x0550 ∧ 0x0550 < criticalLimit 2 ∧
     reading h 2 < criticalLimit 2 ∧ criticalLimit 2 ≤ 0x0FFF ∧ (getTower State.reset 0).inReset = false ∧
     (getTower { State.reset with towers := [(0, { TowerSt.reset with inReset := true })] } 0).inReset = true) := by decide +kernel

/-- The share of the power limit is a number of the package's own: a sample above it and one at it. -/
theorem witness_power : powerShare State.reset < powerShare State.reset + 1 ∧ powerShare State.reset ≤ powerShare State.reset ∧
    (getCore State.reset check).live = false ∧ (getCore State.reset check).throttle < 15 := ⟨by omega, by omega, rfl, by decide +kernel⟩

/-- R396: sensor 2 of tower 4 reads 0x0550: the hot warning is set and the clock goes down a step. -/
theorem test_thermal :
    (getTower (result (exec (.sensorSample 4 2 0x0550) State.reset)) 4).thermal.step = 1 := by decide +kernel

/-! ### Witnesses: registers of the supervisor core, host, platform -/

/-- A frozen task on check core 32 of a walk that software fills, with what the tower keeps for the fill. -/
def wFr (frozen : Bool) (group : Nat) (svc : Option Nat) : State :=
  { State.reset with
    cores := [(coreKey check, { CoreSt.reset 32 with
      live := true, frozen := frozen, fsyn := fsynOf true 5 0x21 0, task := { task with group := group, svcReg := svc } })]
    towers := [(0, { TowerSt.reset with
      tfcore := 32, tfleaf := BitVec.ofNat 64 (2 ^ 63 + 0x2_0000_0000 + 0xC000), vroot := [(3, 2 ^ 63 + 0x1_0000_0000)] })]
    mem := memAt pages }

theorem witness_TaskWrites :
    (getCore (wFr true 1 none) check).frozen = true ∧ (getCore (wFr true 1 none) check).kill = false ∧ (wFr true 0 none).towers.all (fun w => decide (w.2.ready.length < 16384)) ∧
    (getCore (wFr false 1 none) check).frozen = false ∧
    saveReady (wFr true 0 none) check = true ∧ (slotPieces (wFr true 0 none) 0 3 (firstGap 0 (slotsHeld (wFr true 0 none) 0 3))).isSome = true ∧
    saveReady { wFr true 0 none with seals := [⟨0, check, check, 0, [], [], none⟩] } check = false ∧
    (let x := getCore (wFr false 1 none) check
     x.thawed ≠ some (wFr false 1 none).pkg.cyc ∧ (getCore (result (exec (.cfsynResume 0 32) (wFr true 1 none))) check).thawed =
       some (wFr true 1 none).pkg.cyc) ∧
    walkFrozen (getCore (wFr true 0 none) check) = true ∧ leafOk (wFr true 0 none) 1 (getTower (wFr true 0 none) 0).tfleaf.toNat = true ∧
    (findTask (wFr false 0 none) 5).map (fun k => (k.num, holdsEvent k)) = some (5, true) ∧ findTask (wFr false 0 none) 6 = none ∧
    findPlaced (wFr false 0 (some 6)) 5 = some check ∧ (getCore (wFr false 0 (some 6)) check).task.svcReg = some 6 ∧
    tasksOf (wFr false 0 none) (some 0) 3 = [5] ∧ tasksOf (wFr false 0 none) none 3 = [5] ∧ tasksOf (wFr false 0 none) (some 1) 3 = [] ∧
    tasksOf (wFr false 0 none) none 4 = [] := by decide +kernel

theorem witness_ConfigurationWrites :
    ready (.mtsr h0 ⟨0, 5, 0, 7⟩) (sup 0x0018_6A00_0000_0000) = true ∧ ready (.mtsr h0 ⟨0, 5, 0, 7⟩) (sup 0) = true ∧
    windowHeld State.reset 0 = false ∧ windowHeld { State.reset with mem := memAt [(streamAdr 0 763, 2 ^ 63)] } 0 = true ∧
    descFeat (1 <<< 160) &&& 0 ≠ descFeat (1 <<< 160) := by decide +kernel

theorem witness_HostEvents :
    ({ State.reset with pkg := { PkgSt.reset with pcieUp := true } }).pkg.pcieUp = true ∧ barSize 2 < (0x1F_FFFF : BitVec 21).toNat + 2 ∧
    hcwOpen State.reset 0 = false ∧
    hcwOpen { State.reset with towers := [(0, { TowerSt.reset with hcw := 2 ^ 63 })] } 0 = true ∧
    pageHeld State.reset (poolFlat 0 0x17C_0000) 8 = false ∧ windowLocked State.reset = false ∧
    windowLocked { State.reset with pkg := { PkgSt.reset with window := [(0, 2 ^ 63)] } } = true ∧ windowTable 0x100 = true ∧
    windowTable 0xF8 = false ∧ State.reset.pkg.links.length = 16 ∧ (0x1F_FFF8 : BitVec 21).toNat + 8 ≤ 2 ^ 21 ∧
    (0xFFF8 : BitVec 21).toNat + 8 ≤ 2 ^ 16 := by decide +kernel

/-- R394, R391: an image is accepted where the vendor's digest is that of its key and its signature verifies: both are of the package's
own making, so the model has no image of which it could prove them. -/
theorem witness_image (k b sig : List Byte) (hk : k.length = 1952) (hs : sig.length = 3309) (hd : digest k = Config.vendorDigest)
    (hv : Config.mldsaVerify k b sig = true) : imageAccepted State.reset ⟨k, 0, b, sig⟩ = true := by
  simp [imageAccepted, hk, hs, hd, hv, State.reset, PkgSt.reset]

theorem witness_PlatformEvents :
    imageAccepted State.reset ⟨[], 0, [], []⟩ = false ∧ State.reset.pkg.step = 1 ∧ State.reset.pkg.failed = false ∧
    State.reset.pkg.trained.getLsbD 7 = false ∧ (getTower State.reset 7).lostSpires = 0 ∧ (getTower State.reset 0).inReset = false ∧
    (getTower { State.reset with towers := [(0, { TowerSt.reset with inReset := true })] } 0).inReset = true ∧
    (List.replicate 32 (0 : Byte)).length = 32 := by decide +kernel

/-! ### Witnesses: steps -/

/-- Does a state meet what the statement of a step asks, with a syllable that acts, or that waits or takes a fault? -/
def stepMeets (s : State) (a : Agent) (acts : Bool) : Bool :=
  match s.inputs, s.moves with
  | [], .bundleIssue b :: l =>
    let s0 := modTask { s with moves := l, cur := a } commitDue
    match fetchBundle s0 a (curTask s0).pc with
    | (.ok bs, s1) =>
      match splitIssue s1 bs with
      | .ok b' =>
        match b'.syls with
        | [(n, w)] =>
          match decodeSyllable n w with
          | some i =>
            let j := selectForm (curTask s1) i
            decide (a = b) && issueOpen { s with moves := l } a && decide (i.slot = some n) && decide (j.slot = some n) &&
              predicateHolds (curTask s1) (Head.ofWord w) && (decodeFault (some b'.stop) s1 i).isNone && (operandHold s1 i).isNone &&
              ready j s1 && !isTend i && !isArun i && !(curTask s1).agu.run &&
              (match runSyllable j s1 with
               | .done t => acts && !dueOver (curTask t)
               | _ => !acts)
          | none => false
        | _ => false
      | _ => false
    | _ => false
  | _, _ => false

/-- ADD and WFE, each in a bundle with STOP, placed at reset; a supervisor core held in reset. -/
theorem witness_StepRunsInstruction :
    stepMeets (State.reset.withFetchWord 96 (0x0100_1020_1000_0000 * 2 ^ 32 + 0x0024_0000)) (.core 0 0) true = true ∧
    stepMeets (State.reset.withFetchWord 96 (0x1800_0000_0000_0000 * 2 ^ 32 + 0x0014_0000)) (.core 0 0) false = true ∧
    issueOpen { State.reset with moves := [] } boss = false ∧ isSup check = false ∧ task.group < 64 ∧ task.pend = none ∧ task.skip = none ∧
    task.agu.run = false ∧ dueOver task = false ∧ task.loops.all (fun l => !l.active) = true := by decide +kernel

/-- A step runs the placed ADD: three bundles' time later s4 holds the sum. -/
theorem test_step_add :
    let s := State.reset.withFetchWord 96 (0x0100_1020_1000_0000 * 2 ^ 32 + 0x0024_0000)
    let s' := modTaskOf s (.core 0 0) (fun k => { k with s := [(1, 5), (4, 7)] })
    scalarReg (commitAll (getCore (result (step s')) (.core 0 0)).task) 4 = 12 := by decide +kernel

/-- A bundle of two slots, with DRAIN and a transfer. -/
theorem witness_DecodeEncode :
    (Instr.add .sca h0 ⟨4, 4, 1, 0, 0, 0⟩).wf = true ∧ (encode (.add .sca h0 ⟨4, 4, 1, 0, 0, 0⟩)).isSome = true ∧
    (decodeSyllable 0 (spell 0x03 [(1, 47)])).isSome = true ∧
    (let b : Bundle := ⟨true, true, [(0, spell 0x03 [(1, 47)]), (1, 0x0100_1020_1000_0000)]⟩
     b.syls.any isXfer = true ∧ (b.syls.map Prod.fst).Pairwise (fun x y => x < y) ∧ b.syls.all (fun x => decide (x.1 < 12)) = true) := by
  decide +kernel

theorem witness_MemoryStaysCanonical : Sound State.reset ∧ step State.reset = .next (nextCycle State.reset) := ⟨rfl, rfl⟩

end
end Sys2Proof.Tests
end

section
/-!
SUPPORT. The bit fields, counts and reversals of the scalar slots (spec 12_scalar_control.md R246, R247): the bits of each result,
and the fault of an operand outside its limits.
-/
namespace Sys2Proof.Machine

/-! ### Opcodes -/

/-- Both scalar slots have one table of opcodes, but for what SCA alone has. -/
theorem decodeSyllable_port (p : Port) (w : Word) : decodeSyllable p.slot w = decodeScalar p w := by cases p <;> rfl

/-! ### Operands outside their limits (R227) -/

/-- A syllable that may run has its fields within their limits. -/
theorem wf_of_ready {i : Instr} {s : State} (h : Ready i s) : i.wf = true := by
  obtain ⟨_, hdecode, _⟩ := h
  cases hwf : i.wf with
  | true => rfl
  | false =>
    simp only [decodeFault, hwf, Bool.not_false, Bool.true_or, if_true] at hdecode
    split at hdecode
    · cases hdecode
    · split at hdecode
      · cases hdecode
      · split at hdecode <;> cases hdecode

/-- A field outside its limits faults ILLEGAL_OPERAND, where the slot is there and the syllable may stand in its bundle. -/
theorem runGated_illegalOperand {i : Instr} {act : State → Act} {s : State} (hpred : predicateHolds (curTask s) i.head = true)
    (hslot : hasFeature s (slotFeature (slotNum i)) = true) (hplace : badPosition (curTask s) none i = false)
    (hform : formAbsent s i = false) (hwf : i.wf = false) :
    runGated i act s = .next (takeFault s s.cur (bundleFault s .illegalOperand (slotNum i))) :=
  runGated_decode_fault act hpred (by simp [decodeFault, hslot, hplace, hform, hwf])

/-! ### Bit fields (R246) -/

/-- The limits of a field descriptor: X[16:12] is zero, and the field ends within the word. -/
theorem fieldOk_iff (x : BitVec 17) : fieldOk x = true ↔ x.toNat < 4096 ∧ fieldPos x + fieldLen x ≤ 64 := by
  simp only [fieldOk, fieldPos, fieldLen, Bool.and_eq_true, decide_eq_true_eq]
  omega

/-- A field within its limits ends within the word. -/
theorem fieldPos_add_fieldLen_le {x : BitVec 17} (h : fieldOk x = true) : fieldPos x + fieldLen x ≤ 64 := ((fieldOk_iff x).1 h).2

theorem fieldOk_eq_false {x : BitVec 17} (h : 4096 ≤ x.toNat ∨ 64 < fieldPos x + fieldLen x) : fieldOk x = false := by
  rw [Bool.eq_false_iff, ne_eq, fieldOk_iff]
  omega

/-- BFX and BFXU have no B, C or F. -/
theorem limits_of_wfBfx {h : Head} {f : SReg} (w : wfBfx h f = true) : f.b = 0 ∧ f.c = 0 ∧ f.f = 0 ∧ fieldOk f.x = true := by
  simp only [wfBfx, Bool.and_eq_true, decide_eq_true_eq] at w
  obtain ⟨⟨⟨⟨_, hb⟩, hc⟩, hf⟩, hx⟩ := w
  exact ⟨hb, hc, hf, hx⟩

/-- BFI has no C or F. -/
theorem limits_of_wfBfi {h : Head} {f : SReg} (w : wfBfi h f = true) : f.c = 0 ∧ f.f = 0 ∧ fieldOk f.x = true := by
  simp only [wfBfi, Bool.and_eq_true, decide_eq_true_eq] at w
  obtain ⟨⟨⟨_, hc⟩, hf⟩, hx⟩ := w
  exact ⟨hc, hf, hx⟩

theorem fieldLen_pos (x : BitVec 17) : 0 < fieldLen x := Nat.succ_pos _

theorem testBit_fieldGet (a : Word) (x : BitVec 17) (n : Nat) :
    (fieldGet a x).testBit n = (decide (n < fieldLen x) && a.getLsbD (fieldPos x + n)) := by
  rw [fieldGet, Nat.testBit_mod_two_pow, Nat.testBit_div_two_pow, Nat.add_comm, BitVec.testBit_toNat]

/-- The two's-complement value of `k` bits, as a word, is those bits sign-extended. -/
theorem ofInt_signed (k y : Nat) : BitVec.ofInt 64 (signed k y) = (BitVec.ofNat k y).signExtend 64 := by
  simp [BitVec.signExtend, BitVec.toInt, signed]

/-- BFX: past the field's end its highest bit repeats. -/
theorem getLsbD_signedField (a : Word) (x : BitVec 17) {n : Nat} (hn : n < 64) :
    (BitVec.ofInt 64 (signed (fieldLen x) (fieldGet a x))).getLsbD n = a.getLsbD (fieldPos x + min n (fieldLen x - 1)) := by
  have hlen := fieldLen_pos x
  rw [ofInt_signed, BitVec.getLsbD_signExtend, BitVec.msb_eq_getLsbD_last, BitVec.getLsbD_ofNat, BitVec.getLsbD_ofNat,
    testBit_fieldGet, testBit_fieldGet]
  by_cases hfield : n < fieldLen x
  · have hmin : min n (fieldLen x - 1) = n := by omega
    rw [hmin, if_pos hfield]
    simp only [hn, hfield, decide_true, Bool.true_and]
  · have hmin : min n (fieldLen x - 1) = fieldLen x - 1 := by omega
    have hlast : fieldLen x - 1 < fieldLen x := by omega
    rw [hmin, if_neg hfield]
    simp only [hn, hlast, decide_true, Bool.true_and]

/-- BFXU: past the field's end there are zeros. -/
theorem getLsbD_unsignedField (a : Word) (x : BitVec 17) {n : Nat} (hn : n < 64) :
    (word (fieldGet a x)).getLsbD n = (decide (n < fieldLen x) && a.getLsbD (fieldPos x + n)) := by
  rw [word, BitVec.getLsbD_ofNat, testBit_fieldGet, decide_eq_true hn, Bool.true_and]

/-- A number in three parts, the middle one replaced. -/
theorem setBits_eq (x hi lo v : Nat) :
    setBits x hi lo v =
      2 ^ lo * (2 ^ (hi + 1 - lo) * (x / 2 ^ lo / 2 ^ (hi + 1 - lo)) + v % 2 ^ (hi + 1 - lo)) + x % 2 ^ lo := by
  have hx : 2 ^ lo * (2 ^ (hi + 1 - lo) * (x / 2 ^ lo / 2 ^ (hi + 1 - lo)) + x / 2 ^ lo % 2 ^ (hi + 1 - lo)) + x % 2 ^ lo = x := by
    rw [Nat.div_add_mod, Nat.div_add_mod]
  rw [Nat.mul_add] at hx ⊢
  rw [setBits, bits, Nat.shiftRight_eq_div_pow, Nat.shiftLeft_eq, Nat.shiftLeft_eq, Nat.mul_comm _ (2 ^ lo), Nat.mul_comm _ (2 ^ lo)]
  omega

/-- Bits `hi` down to `lo` come from the new value, and the others stay. -/
theorem testBit_setBits (x v : Nat) {hi lo : Nat} (h : lo ≤ hi + 1) (n : Nat) :
    (setBits x hi lo v).testBit n = if lo ≤ n ∧ n ≤ hi then v.testBit (n - lo) else x.testBit n := by
  rw [setBits_eq, Nat.testBit_two_pow_mul_add _ (Nat.mod_lt _ (Nat.two_pow_pos _)),
    Nat.testBit_two_pow_mul_add _ (Nat.mod_lt _ (Nat.two_pow_pos _))]
  by_cases hlo : n < lo
  · rw [if_pos hlo, if_neg (by omega), Nat.testBit_mod_two_pow, decide_eq_true hlo, Bool.true_and]
  · by_cases hhi : n ≤ hi
    · have hin : n - lo < hi + 1 - lo := by omega
      rw [if_neg hlo, if_pos hin, if_pos ⟨Nat.not_lt.mp hlo, hhi⟩, Nat.testBit_mod_two_pow, decide_eq_true hin, Bool.true_and]
    · have hout : ¬ n - lo < hi + 1 - lo := by omega
      have hpos : n - lo - (hi + 1 - lo) + (hi + 1 - lo) + lo = n := by omega
      rw [if_neg hlo, if_neg hout, if_neg (by omega), Nat.testBit_div_two_pow, Nat.testBit_div_two_pow, hpos]

/-- BFI: the field holds the low bits of B, and the other bits are those of A. -/
theorem getLsbD_fieldPut (a b : Word) (x : BitVec 17) {n : Nat} (hn : n < 64) :
    (fieldPut a b x).getLsbD n =
      if fieldPos x ≤ n ∧ n < fieldPos x + fieldLen x then b.getLsbD (n - fieldPos x) else a.getLsbD n := by
  have hlen := fieldLen_pos x
  have hrange : n ≤ fieldPos x + fieldLen x - 1 ↔ n < fieldPos x + fieldLen x := by omega
  rw [fieldPut, BitVec.getLsbD_ofNat, testBit_setBits _ _ (by omega), decide_eq_true hn, Bool.true_and]
  simp only [hrange, BitVec.testBit_toNat]

/-! ### Counts (R247) -/

/-- The counts and reversals have no B, C, F or X. -/
theorem limits_of_wfDA {h : Head} {f : SReg} (w : wfDA h f = true) : f.b = 0 ∧ f.c = 0 ∧ f.f = 0 ∧ f.x = 0 := by
  simp only [wfDA, Bool.and_eq_true, decide_eq_true_eq] at w
  obtain ⟨⟨⟨⟨_, hb⟩, hc⟩, hf⟩, hx⟩ := w
  exact ⟨hb, hc, hf, hx⟩

theorem leadZeros_le (a : Word) (k : Nat) : leadZeros a k ≤ k := by
  induction k with
  | zero => exact Nat.le_refl 0
  | succ k ih => rw [leadZeros]; split <;> omega

/-- The bits that CLZ counts are clear. -/
theorem getLsbD_of_lt_leadZeros (a : Word) {k m : Nat} (h : m < leadZeros a k) : a.getLsbD (k - 1 - m) = false := by
  induction k generalizing m with
  | zero => exact absurd h (Nat.not_lt_zero m)
  | succ k ih =>
    rw [leadZeros] at h
    split at h
    · exact absurd h (Nat.not_lt_zero m)
    · next hclear =>
      cases m with
      | zero => simpa using hclear
      | succ m =>
        rw [show k + 1 - 1 - (m + 1) = k - 1 - m by omega]
        exact ih (by omega)

/-- The bit at which CLZ ends is set. -/
theorem getLsbD_leadZeros (a : Word) {k : Nat} (h : leadZeros a k < k) : a.getLsbD (k - 1 - leadZeros a k) = true := by
  induction k with
  | zero => exact absurd h (Nat.not_lt_zero _)
  | succ k ih =>
    rw [leadZeros] at h ⊢
    split at h
    · next hset => simp [hset]
    · next hclear =>
      rw [if_neg hclear, show k + 1 - 1 - (leadZeros a k + 1) = k - 1 - leadZeros a k by omega]
      exact ih (by omega)

theorem trailZeros_le (a : Word) (k : Nat) : trailZeros a k ≤ k := by
  induction k with
  | zero => exact Nat.le_refl 0
  | succ k ih => rw [trailZeros]; split <;> omega

/-- The bits that CTZ counts are clear. -/
theorem getLsbD_of_lt_trailZeros (a : Word) {k m : Nat} (hk : k ≤ 64) (h : m < trailZeros a k) :
    a.getLsbD (64 - k + m) = false := by
  induction k generalizing m with
  | zero => exact absurd h (Nat.not_lt_zero m)
  | succ k ih =>
    rw [trailZeros] at h
    split at h
    · exact absurd h (Nat.not_lt_zero m)
    · next hclear =>
      cases m with
      | zero =>
        rw [show 64 - (k + 1) + 0 = 63 - k by omega]
        simpa using hclear
      | succ m =>
        rw [show 64 - (k + 1) + (m + 1) = 64 - k + m by omega]
        exact ih (by omega) (by omega)

/-- The bit at which CTZ ends is set. -/
theorem getLsbD_trailZeros (a : Word) {k : Nat} (hk : k ≤ 64) (h : trailZeros a k < k) :
    a.getLsbD (64 - k + trailZeros a k) = true := by
  induction k with
  | zero => exact absurd h (Nat.not_lt_zero _)
  | succ k ih =>
    rw [trailZeros] at h ⊢
    split at h
    · next hset =>
      rw [if_pos hset, show 64 - (k + 1) + 0 = 63 - k by omega]
      exact hset
    · next hclear =>
      rw [if_neg hclear, show 64 - (k + 1) + (trailZeros a k + 1) = 64 - k + trailZeros a k by omega]
      exact ih (by omega) (by omega)

/-- POPC counts the positions of the set bits. -/
theorem popCount_eq_length_filter (a : Word) (k : Nat) :
    popCount a.toNat k = ((List.range k).filter (fun n => a.getLsbD n)).length := by
  induction k with
  | zero => rfl
  | succ k ih =>
    rw [popCount, ih, List.range_succ, List.filter_append, List.length_append, Nat.add_comm, BitVec.testBit_toNat]
    cases hbit : a.getLsbD k <;> simp [hbit]

/-! ### Reversals (R247) -/

theorem leBytes_length (k x : Nat) : (leBytes k x).length = k := by
  induction k generalizing x with
  | zero => rfl
  | succ k ih => rw [leBytes, List.length_cons, ih]

/-- Byte `j` of a number's little-endian bytes. -/
theorem leBytes_getElem {k x j : Nat} (h : j < (leBytes k x).length) :
    (leBytes k x)[j] = BitVec.ofNat 8 (x / 2 ^ (8 * j)) := by
  induction k generalizing x j with
  | zero => exact absurd h (Nat.not_lt_zero j)
  | succ k ih =>
    cases j with
    | zero => simp [leBytes]
    | succ j =>
      simp only [leBytes, List.getElem_cons_succ, ih]
      rw [Nat.div_div_eq_div_mul, show 256 = 2 ^ 8 by rfl, ← Nat.pow_add, Nat.mul_succ, Nat.add_comm 8]

/-- Bit `n` of byte `j` of the number that little-endian bytes spell. -/
theorem testBit_leNat {l : List Byte} {j n : Nat} (hj : j < l.length) (hn : n < 8) :
    (leNat l).testBit (8 * j + n) = l[j].getLsbD n := by
  induction l generalizing j with
  | nil => exact absurd hj (Nat.not_lt_zero j)
  | cons b l ih =>
    rw [leNat, Nat.add_comm, show 256 = 2 ^ 8 by rfl, Nat.testBit_two_pow_mul_add _ b.isLt]
    cases j with
    | zero => rw [Nat.mul_zero, Nat.zero_add, if_pos hn, BitVec.testBit_toNat, List.getElem_cons_zero]
    | succ j =>
      rw [if_neg (by omega), show 8 * (j + 1) + n - 8 = 8 * j + n by omega]
      exact ih (Nat.lt_of_succ_lt_succ hj)

/-- BSWAP: byte `j` is byte `7 - j` of A. -/
theorem getLsbD_byteSwap (a : Word) {j n : Nat} (hj : j < 8) (hn : n < 8) :
    (byteSwap a).getLsbD (8 * j + n) = a.getLsbD (8 * (7 - j) + n) := by
  have hlen : j < (leBytes 8 a.toNat).reverse.length := by rwa [List.length_reverse, leBytes_length]
  rw [byteSwap, BitVec.getLsbD_ofNat, decide_eq_true (by omega), Bool.true_and, testBit_leNat hlen hn, List.getElem_reverse,
    leBytes_getElem, BitVec.getLsbD_ofNat, Nat.testBit_div_two_pow, decide_eq_true hn, Bool.true_and, leBytes_length,
    BitVec.testBit_toNat, Nat.add_comm]

/-- BREV: bit `n` is bit `63 - n` of A. -/
theorem getLsbD_reverse_word (a : Word) {n : Nat} (hn : n < 64) : a.reverse.getLsbD n = a.getLsbD (63 - n) := by
  rw [BitVec.getLsbD_reverse, BitVec.getMsbD, decide_eq_true hn, Bool.true_and]

/-! ### The obligation -/

/-- Settles O4: the opcodes are the decoder's arms; a syllable that may run gives its operation's value, whose bits are those of
the lemmas above; and a field outside its limits makes the syllable ill-formed, which is a decode fault ILLEGAL_OPERAND. -/
theorem bitFieldAndCountResults : Obligations.BitFieldAndCountResults := by
  unfold Obligations.BitFieldAndCountResults
  refine ⟨fun p w => ?_, fun p h f s => ⟨fun hr => ?_, fun hr => ?_, fun hr => ?_, fun hr => ?_, fun hr => ?_, fun hr => ?_,
    fun hr => ?_, fun hr => ?_, fun hpred hslot => ⟨fun hx => ?_, fun hz => ?_, fun hz => ?_, fun hz => ?_⟩⟩⟩
  -- opcodes
  · simp only [decodeSyllable_port, decodeScalar]
    refine ⟨?_, ?_, ?_, ?_, ?_, ?_, ?_, ?_⟩ <;> intro hopc <;> simp only [hopc]
  -- bit fields
  · obtain ⟨_, _, _, hfield⟩ := limits_of_wfBfx (wf_of_ready hr)
    exact ⟨fieldPos_add_fieldLen_le hfield, _, runGated_done hr rfl, fun n hn => getLsbD_signedField _ _ hn⟩
  · obtain ⟨_, _, _, hfield⟩ := limits_of_wfBfx (wf_of_ready hr)
    exact ⟨fieldPos_add_fieldLen_le hfield, _, runGated_done hr rfl, fun n hn => getLsbD_unsignedField _ _ hn⟩
  · obtain ⟨_, _, hfield⟩ := limits_of_wfBfi (wf_of_ready hr)
    exact ⟨fieldPos_add_fieldLen_le hfield, _, runGated_done hr rfl, fun n hn => getLsbD_fieldPut _ _ _ hn⟩
  -- counts
  · exact ⟨leadZeros (scalarIn (curTask s) f.a) 64, runGated_done hr rfl, leadZeros_le _ _,
      fun m hm => getLsbD_of_lt_leadZeros _ hm, fun hset => getLsbD_leadZeros _ hset⟩
  · refine ⟨trailZeros (scalarIn (curTask s) f.a) 64, runGated_done hr rfl, trailZeros_le _ _, fun m hm => ?_, fun hset => ?_⟩
    · simpa using getLsbD_of_lt_trailZeros _ (Nat.le_refl 64) hm
    · simpa using getLsbD_trailZeros _ (Nat.le_refl 64) hset
  · rw [← popCount_eq_length_filter]
    exact runGated_done hr rfl
  -- reversals
  · exact ⟨_, runGated_done hr rfl, fun n hn => getLsbD_reverse_word _ hn⟩
  · exact ⟨_, runGated_done hr rfl, fun j n hj hn => getLsbD_byteSwap _ hj hn⟩
  -- faults
  · have hfield : fieldOk f.x = false := fieldOk_eq_false hx
    have hbfx : wfBfx h f = false := by simp [wfBfx, hfield]
    have hbfi : wfBfi h f = false := by simp [wfBfi, hfield]
    exact ⟨runGated_illegalOperand hpred hslot rfl rfl hbfx, runGated_illegalOperand hpred hslot rfl rfl hbfx,
      runGated_illegalOperand hpred hslot rfl rfl hbfi⟩
  · have hbfx : wfBfx h f = false := Bool.eq_false_iff.2 fun w => by
      obtain ⟨hb, hc, hf, _⟩ := limits_of_wfBfx w
      simp [hb, hc, hf] at hz
    exact ⟨runGated_illegalOperand hpred hslot rfl rfl hbfx, runGated_illegalOperand hpred hslot rfl rfl hbfx⟩
  · have hbfi : wfBfi h f = false := Bool.eq_false_iff.2 fun w => by
      obtain ⟨hc, hf, _⟩ := limits_of_wfBfi w
      simp [hc, hf] at hz
    exact runGated_illegalOperand hpred hslot rfl rfl hbfi
  · have hda : wfDA h f = false := Bool.eq_false_iff.2 fun w => by
      obtain ⟨hb, hc, hf, hx⟩ := limits_of_wfDA w
      simp [hb, hc, hf, hx] at hz
    refine ⟨?_, ?_, ?_, ?_, ?_⟩ <;> exact runGated_illegalOperand hpred hslot rfl rfl hda

end Sys2Proof.Machine
end

section
/-!
SUPPORT. MZERO (spec 14_vector_matrix.md R317): what it makes of the matrix array's state, and its fault.
-/
namespace Sys2Proof.Machine

/-! ### The array after MZERO (R317) -/

/-- The array with a tile zeroed and valid, and without the open block if that belongs to the tile. -/
def clearTile (a : Arr) (z : Nat) : Arr :=
  { a with
    z := setAt a.z z [], valid := setAt a.valid z true
    blk := if a.blk.map Block.tile = some z then none else a.blk }

/-- MZERO changes the array as `clearTile` says and takes the poison off its tile. -/
theorem sylMzero_eq (f : MatF) (s : State) :
    sylMzero f s = .done (modTask s (fun t =>
      { t with arr := clearTile (curTask s).arr f.z.toNat, poison := unpoison (.tile f.z.toNat) t.poison })) := rfl

@[simp] theorem clearTile_x (a : Arr) (z : Nat) : (clearTile a z).x = a.x := rfl

/-- Every element of the tile is 0. -/
theorem clearTile_element {a : Arr} {z : Nat} (hz : z < a.z.length) (n : Nat) :
    ((clearTile a z).z.getD z []).getD n 0 = 0 := by
  rw [clearTile, setAt_getD, if_pos ⟨rfl, hz⟩, List.getD_nil]

theorem tileValid_clearTile {a : Arr} {z : Nat} (hz : z < a.valid.length) : tileValid (clearTile a z) z = true := by
  rw [tileValid, clearTile, setAt_getD, if_pos ⟨rfl, hz⟩]

theorem clearTile_z_ne (a : Arr) {y z : Nat} (h : y ≠ z) : (clearTile a z).z.getD y [] = a.z.getD y [] := by
  rw [clearTile, setAt_getD, if_neg fun hy => h hy.1]

theorem tileValid_clearTile_ne (a : Arr) {y z : Nat} (h : y ≠ z) : tileValid (clearTile a z) y = tileValid a y := by
  rw [tileValid, clearTile, setAt_getD, if_neg fun hy => h hy.1, tileValid]

theorem clearTile_blk_of_tile {a : Arr} {z : Nat} (h : a.blk.map Block.tile = some z) : (clearTile a z).blk = none := if_pos h

theorem clearTile_blk_of_ne {a : Arr} {z : Nat} (h : a.blk.map Block.tile ≠ some z) : (clearTile a z).blk = a.blk := if_neg h

/-! ### Fields that must be zero -/

theorem fields_of_wfMzero {h : Head} {f : MatF} (w : wfMzero h f = true) :
    f.s1 = 0 ∧ f.s2 = 0 ∧ f.aux = 0 ∧ f.ty = 0 ∧ f.md = 0 := by
  simp only [wfMzero, Bool.and_eq_true, decide_eq_true_eq] at w
  obtain ⟨⟨⟨⟨⟨_, hs1⟩, hs2⟩, haux⟩, hty⟩, hmd⟩ := w
  exact ⟨hs1, hs2, haux, hty, hmd⟩

/-! ### The obligation -/

/-- Settles O17: a tile number has three bits, so all eight tiles are within the array's lists; what MZERO does is then read off
`clearTile`, and a field that is not zero makes the syllable ill-formed, which is a decode fault ILLEGAL_OPERAND. -/
theorem zeroTile : Obligations.ZeroTile := by
  unfold Obligations.ZeroTile
  refine ⟨fun w hopc => ?_, fun h f s => ⟨fun hr hz hvalid => ?_, fun hpred hslot hx => ?_⟩⟩
  -- opcode
  · simp only [decodeSyllable, decodeMtx, hopc]
  -- effect
  · exact ⟨clearTile (curTask s).arr f.z.toNat, runGated_done hr (sylMzero_eq f s), clearTile_element (hz ▸ f.z.isLt),
      tileValid_clearTile (hvalid ▸ f.z.isLt), clearTile_x _ _, fun y hy => ⟨clearTile_z_ne _ hy, tileValid_clearTile_ne _ hy⟩,
      clearTile_blk_of_tile, clearTile_blk_of_ne⟩
  -- fault
  · have hwf : wfMzero h f = false := Bool.eq_false_iff.2 fun w => by
      obtain ⟨hs1, hs2, haux, hty, hmd⟩ := fields_of_wfMzero w
      simp [hs1, hs2, haux, hty, hmd] at hx
    exact runGated_illegalOperand hpred hslot rfl rfl hwf

end Sys2Proof.Machine
end
